-- ==== Sys2Proof/Word.lean ====
section
/-! DEFINITION. The word types of the unit (spec/00_scope.md R9 and R11). -/

namespace Sys2Proof

/-- `u8`: a request word, a device command, a status byte, a byte of caller memory. -/
abbrev Byte := BitVec 8

/-- `u16`: a data word, a base, a port address (`DATA_WIDTH`, `PORT_ADDR_WIDTH`). -/
abbrev Word16 := BitVec 16

/-- `u64`: POS, a length, a caller-memory address (`POS_WIDTH`, `LEN_WIDTH`, `MEM_ADDR_WIDTH`). -/
abbrev Word64 := BitVec 64

end Sys2Proof
end

