-- ==== Sys2Proof/Syntax.lean ====
section
/-! DEFINITION. The instructions: the eight caller requests of spec/30_encoding.md R82 and the three device
commands of R92, one constructor for each row of spec/opcode_table.json. No constructor has operands:
a request's operands come from ARG0 and ARG1 (R81, R84), and a device command is one byte with no fields (R92). -/

namespace Sys2Proof

/-- One row of the opcode table each. -/
inductive Instr where
  /-- `INIT` (R130). -/
  | init
  /-- `SEEK.ABS` (R140). -/
  | seekAbs
  /-- `SEEK.REL` (R141). -/
  | seekRel
  /-- `SEEK.END` (R142). -/
  | seekEnd
  /-- `READ` (R200). -/
  | read
  /-- `WRITE` (R220). -/
  | write
  /-- `FLUSH` (R186). -/
  | flush
  /-- `RSC` (R164). -/
  | rsc
  /-- `READ_SECTORS`, the device command READ SECTORS (R184). -/
  | readSectors
  /-- `WRITE_SECTORS`, the device command WRITE SECTORS (R184). -/
  | writeSectors
  /-- `CACHE_FLUSH`, the device command CACHE FLUSH (R185). -/
  | cacheFlush
  deriving DecidableEq, Repr

/-- The two encoding surfaces of spec/30_encoding.md: `REQ8` is a word the caller writes to REQ (R80),
`DEVCMD8` a byte the unit writes to `P_STATCMD` (R92). -/
inductive Format where
  | req8
  | devcmd8
  deriving DecidableEq, Repr

/-- The surface an instruction belongs to (the "format" of its row). -/
def Instr.format : Instr → Format
  | .init => .req8
  | .seekAbs => .req8
  | .seekRel => .req8
  | .seekEnd => .req8
  | .read => .req8
  | .write => .req8
  | .flush => .req8
  | .rsc => .req8
  | .readSectors => .devcmd8
  | .writeSectors => .devcmd8
  | .cacheFlush => .devcmd8

end Sys2Proof
end

