-- ==== Sys2Proof/WellFormed.lean ====
section
/-! DEFINITION. When an instruction may stand on an encoding surface. An instruction has no operand that could
be out of range, so the one check is that a request stands on the request surface and a device command on the
command surface: R82 gives no request word to a device command, and R92 lets the unit write no request word
to `P_STATCMD`. -/

namespace Sys2Proof

/-- `i` may be encoded on the surface `f`. -/
def Instr.wellFormedOn (f : Format) (i : Instr) : Bool := i.format == f

end Sys2Proof
end

