-- ==== Sys2Proof/Decode.lean ====
section
/-! DEFINITION. The decoder and the encoder of spec/30_encoding.md: the request map R82 and the device command
bytes R92. Both decoders are total (R83: "The decoder is total") and reject by name. -/

namespace Sys2Proof

/-- Why a byte is no instruction of its surface. -/
inductive DecodeError where
  /-- RSV (bits 7:4) is not 0000 (R83). -/
  | reservedBits
  /-- OP is 0x0 or 0x9-0xF (R83). -/
  | reservedOp
  /-- The byte is none of the three device commands of R92. -/
  | notACommand
  deriving DecidableEq, Repr

/-- The OP field of a request word, bits 3:0 (R80). -/
def reqOp (q : Byte) : BitVec 4 := q.extractLsb' 0 4

/-- The RSV field of a request word, bits 7:4 (R80). -/
def reqRsv (q : Byte) : BitVec 4 := q.extractLsb' 4 4

/-- The opcode map on the OP field (R82). -/
def decodeOp (op : BitVec 4) : Except DecodeError Instr :=
  match op.toNat with
  | 1 => .ok .init
  | 2 => .ok .seekAbs
  | 3 => .ok .seekRel
  | 4 => .ok .seekEnd
  | 5 => .ok .read
  | 6 => .ok .write
  | 7 => .ok .flush
  | 8 => .ok .rsc
  | _ => .error .reservedOp

/-- The request a word written to REQ selects (R82, R83). -/
def decodeRequest (q : Byte) : Except DecodeError Instr :=
  if reqRsv q = 0#4 then decodeOp (reqOp q) else .error .reservedBits

/-- The device command a byte written to `P_STATCMD` selects (R92). -/
def decodeCommand (c : Byte) : Except DecodeError Instr :=
  if c = 0x20#8 then .ok .readSectors
  else if c = 0x30#8 then .ok .writeSectors
  else if c = 0xE7#8 then .ok .cacheFlush
  else .error .notACommand

/-- The decoder of one surface. -/
def decodeOn (f : Format) (b : Byte) : Except DecodeError Instr :=
  match f with
  | .req8 => decodeRequest b
  | .devcmd8 => decodeCommand b

/-- The one byte of an instruction (R82, R92). -/
def encode : Instr → Byte
  | .init => 0x01#8
  | .seekAbs => 0x02#8
  | .seekRel => 0x03#8
  | .seekEnd => 0x04#8
  | .read => 0x05#8
  | .write => 0x06#8
  | .flush => 0x07#8
  | .rsc => 0x08#8
  | .readSectors => 0x20#8
  | .writeSectors => 0x30#8
  | .cacheFlush => 0xE7#8

/-- The mnemonic of an instruction (R82, R92, R96). -/
def mnemonic : Instr → String
  | .init => "INIT"
  | .seekAbs => "SEEK.ABS"
  | .seekRel => "SEEK.REL"
  | .seekEnd => "SEEK.END"
  | .read => "READ"
  | .write => "WRITE"
  | .flush => "FLUSH"
  | .rsc => "RSC"
  | .readSectors => "READ_SECTORS"
  | .writeSectors => "WRITE_SECTORS"
  | .cacheFlush => "CACHE_FLUSH"

/-- The instruction of a row of spec/opcode_table.json, whose two formats share no byte: the request of that
word if it is one, else the device command of that byte. Every row is 8 bits. -/
def decodeTableWord (nbits w : Nat) : Option Instr :=
  if nbits = 8 ∧ w < 256 then
    match decodeRequest (BitVec.ofNat 8 w) with
    | .ok i => some i
    | .error _ =>
      match decodeCommand (BitVec.ofNat 8 w) with
      | .ok i => some i
      | .error _ => none
  else none

end Sys2Proof
end

