-- ==== Sys2Proof/Config.lean ====
section
/-! DEFINITION. The implementation parameters of spec/00_scope.md R9, and the free values: what the
device answers, which no rule constrains (R8, spec/92_eei_decisions.md D33). -/

namespace Sys2Proof.Config

/-- `SECTOR_BYTES` (R9), fixed by the source. -/
def sectorBytes : Nat := 512

/-- `SECTOR_WORDS` (R9), fixed by the source. -/
def sectorWords : Nat := 256

/-- `ABSENT_SENTINEL` (R9, R95), fixed by the source. -/
def absentSentinel : Byte := 0xFF#8

/-- `MAX_SECTORS` (R9), decision D5 of the spec. -/
def maxSectors : Nat := 255

/-- The number of caller-memory addresses, `2^MEM_ADDR_WIDTH` (R9, R51), decision D16 of the spec. -/
def memBytes : Nat := 2 ^ 64

/-- One more than the largest cursor, `2^POS_WIDTH` (R9, R23), decision D3 of the spec. -/
def posLimit : Nat := 2 ^ 64

/-- The largest command base INIT accepts (R110, R130), decision D14 of the spec. -/
def maxCmdBase : Nat := 0xFFF8

/-- `DISK_SECTORS` of the reference device: it holds every 28-bit LBA (R52, R75). -/
def diskSectors : Nat := 2 ^ 28

/-- FREE VALUE: the answer to the `n`-th 8-bit read that no script answers (R113: "a draw: any u8"). Log entry 2. -/
opaque freeAnswer8 : Nat → Byte

/-- FREE VALUE: the answer to the `n`-th 16-bit read that no script answers (R115: "a draw: any u16"). Log entry 2. -/
opaque freeAnswer16 : Nat → Word16

/-- FREE VALUE: the reference device's answer to an 8-bit read of a port R76 does not list, by the port's
number in the table of R110. No step of the unit makes such a read (R62). Log entry 16. -/
opaque freeUnlisted8 : Nat → Byte

/-- FREE VALUE: what ERR holds after UNWRITTEN_SNAPSHOT, a fault for which the unit has no code (R262). Log entry 9. -/
opaque unwrittenSnapshotErr : Byte

end Sys2Proof.Config
end

