-- ==== Sys2Proof/Machine/State.lean ====
section
/-! DEFINITION. The state of the unit (spec/10_state.md R20-R37), the caller and its memory (R8, R51) and the
device (R8, R75-R78), as plain data; the reasons a step can stop; and the state after reset (R42). -/

namespace Sys2Proof.Machine

/-- The nine ports of the unit (R110, R14). The unit can name no other port (R111). -/
inductive PortName where
  | data
  | errFeat
  | secCnt
  | lba0
  | lba1
  | lba2
  | drvSel
  | statCmd
  | ctl
  deriving DecidableEq, Repr

/-- A port transaction as the trace writes it (R98): the port by name, its address, the value moved. The 16-bit
transactions are to `P_DATA` only (R115, R116). -/
inductive PortTx where
  | in8 (port : PortName) (addr : Word16) (v : Byte)
  | out8 (port : PortName) (addr : Word16) (v : Byte)
  | in16 (addr : Word16) (v : Word16)
  | out16 (addr : Word16) (v : Word16)
  deriving DecidableEq, Repr

/-- T_OP (R30). -/
inductive TransferOp where
  | read
  | write
  deriving DecidableEq, Repr

/-- The four command sequences of READ and WRITE: READ's own, WRITE's two snapshot reads (prefixes `SS_` and
`SE_` of R37) and WRITE's own. -/
inductive Leg where
  | read
  | snapStart
  | snapEnd
  | write
  deriving DecidableEq, Repr

/-- The points of one command sequence (R37). XFER's `(s, w)` stands in the registers `loopS` and `loopW`. -/
inductive Stage where
  | bw
  | sel
  | cnt
  | l0
  | l1
  | l2
  | cmd
  | wrBsy
  | wrDrq
  | xfer
  deriving DecidableEq, Repr

/-- The points at which a port transaction is pending (R37): INIT's two (R130), those of a command sequence,
and WRITE's closing flush `FL_BSY`, `FL_CMD` (R185). -/
inductive Point where
  | initStatus
  | initControl
  | leg (l : Leg) (p : Stage)
  | flBsy
  | flCmd
  deriving DecidableEq, Repr

/-- SEQ (R35). The `op` of `RUN(op, point)` is a function of the point (log entry 23). -/
inductive Seq where
  | uninit
  | idle
  | run (pt : Point)
  | faulted
  deriving DecidableEq, Repr

/-- Memory by address: the listed bytes. -/
abbrev Memory := List Host.Cell

/-- A boundary-sector snapshot (R32): element `w` is a data word, or no value (R33). -/
abbrev Snapshot := Vector (Option Word16) 256

/-- `phase` of the reference device (R75). -/
inductive DevPhase where
  | idle
  | pioIn (lba : BitVec 28) (left w : Nat)
  | pioOut (lba : BitVec 28) (left w : Nat)
  deriving DecidableEq, Repr

/-- The present reference device (R75). `disk` lists the bytes by device position, `lba * 512 + byte` (R55). -/
structure RefDevice where
  disk : Memory
  feat : Byte
  sc : Byte
  lb0 : Byte
  lb1 : Byte
  lb2 : Byte
  ds : Byte
  dctl : Byte
  phase : DevPhase
  deriving DecidableEq, Repr

/-- The device at the ports (R8). -/
inductive Device where
  /-- Any device: reads are answered by the two scripts in order, then by free values, of which `drawn` have been
  used; writes are absorbed. Log entry 2. -/
  | oracle (script8 : List Byte) (script16 : List Word16) (drawn : Nat)
  /-- The present reference device (R75-R77). -/
  | present (d : RefDevice)
  /-- The absent reference device, a floating bus (R78). -/
  | absent
  deriving DecidableEq, Repr

/-- The caller-side registers a caller can name in a read (R21-R29). -/
inductive CallerReg where
  | cmdBase
  | ctlBase
  | pos
  | ustat
  | req
  | arg0
  | arg1
  | result
  deriving DecidableEq, Repr

/-- A move of the caller or the platform. Log entries 1, 18, 22 and 25. -/
inductive CallerMove where
  /-- Write a request word to REQ (R39). -/
  | writeReq (q : Byte)
  /-- Write ARG0 (R27). -/
  | writeArg0 (v : Word64)
  /-- Write ARG1 (R28). -/
  | writeArg1 (v : Word64)
  /-- Read a register (R21-R29). -/
  | readReg (r : CallerReg)
  /-- Write a byte of caller memory. -/
  | writeMem (a : Word64) (v : Byte)
  /-- Read a byte of caller memory. -/
  | readMem (a : Word64)
  /-- Make no move in this step: the unit moves. -/
  | yield
  /-- Poll USTAT until BUSY=0 (R96, R258): the unit moves while BUSY=1. -/
  | awaitDone
  /-- Hardware reset of the unit (R280). -/
  | hardReset
  deriving DecidableEq, Repr

/-- The machine: the unit's registers, hidden registers and sequencing state, caller memory, the device, and the
model's own fields (the trace, the caller's queue, the caller's last read). -/
structure State where
  /-- CMD_BASE (R21). -/
  cmdBase : Word16
  /-- CTL_BASE (R22). -/
  ctlBase : Word16
  /-- POS (R23). -/
  pos : Word64
  /-- USTAT (R24). -/
  ustat : Word16
  /-- REQ (R26). -/
  req : Byte
  /-- ARG0 (R27). -/
  arg0 : Word64
  /-- ARG1 (R28). -/
  arg1 : Word64
  /-- RESULT (R29). -/
  result : Word64
  /-- T_OP (R30). -/
  tOp : TransferOp
  /-- T_BUF (R30). -/
  tBuf : Word64
  /-- T_L (R30). -/
  tL : Word64
  /-- T_OFF (R30). -/
  tOff : BitVec 9
  /-- T_LBA (R30). -/
  tLba : Word64
  /-- T_SECT (R30). -/
  tSect : Word16
  /-- T_END (R30). -/
  tEnd : Word64
  /-- The loop variable `s` (R31). -/
  loopS : Word16
  /-- The loop variable `w` (R31). -/
  loopW : BitVec 9
  /-- START_SNAP (R32). -/
  startSnap : Snapshot
  /-- END_SNAP (R32). -/
  endSnap : Snapshot
  /-- HAVE_START (R33). -/
  haveStart : Bool
  /-- HAVE_END (R33). -/
  haveEnd : Bool
  /-- MODEL'S OWN: UNWRITTEN_SNAPSHOT has been raised, the fault without a code (R262). Log entry 9. -/
  snapshotFault : Bool
  /-- SEQ (R35). -/
  seq : Seq
  /-- Caller memory (R51). -/
  mem : Memory
  /-- The device (R8). -/
  device : Device
  /-- MODEL'S OWN: the port transactions made so far, newest first (R98). Log entry 15. -/
  trace : List PortTx
  /-- MODEL'S OWN: the moves of the caller and the platform still to come, oldest first. Log entry 1. -/
  callerQueue : List CallerMove
  /-- MODEL'S OWN: what the caller's last read returned. Log entry 18. -/
  callerIn : Word64
  deriving DecidableEq, Repr

/-- Why the machine stops with a fault. (The fatal faults of the unit, and the model's own UNWRITTEN_SNAPSHOT, are
next states in FAULTED: R255, R262.) -/
inductive Fault where
  /-- A buffer address at or above `2^64` (R51). Raised by the data steps of READ and WRITE. Safe; unreachable, because
  a request with such a buffer raises BUFFER_RANGE (R256). Log entry 10. -/
  | outsideCallerMemory
  deriving DecidableEq, Repr

/-- Why the merge of a word of WRITE (R225) gives no word. -/
inductive MergeError where
  /-- It reads a snapshot element that holds no value: UNWRITTEN_SNAPSHOT (R262). -/
  | unwrittenSnapshot
  /-- It reads a buffer byte at an address that does not exist (R51). -/
  | outsideCallerMemory
  deriving DecidableEq, Repr

/-- Why the model gives a step no meaning. -/
inductive Refusal where
  /-- An instruction without a meaning yet. Raised by `exec` only. Safe. -/
  | notModelled (mnemonic : String)
  /-- A device command is asked of the unit where its sequence issues none (R188). Raised by `exec` of a device command;
  no step raises it. Safe. Log entry 12. -/
  | commandNotDue
  /-- The caller accesses the buffer of the request in progress, a move the spec gives it not (R68, I3 "refuse").
  Raised by the caller's memory moves. Unsafe towards a platform that breaks the duty (D17). Log entry 11. -/
  | ownershipBroken
  deriving DecidableEq, Repr

/-- The three outcomes of a step of this machine. -/
abbrev Result := Host.Outcome State Fault Refusal

/-- The machine right after reset (R42). R42 leaves the transfer registers and the loop variables unspecified; the
zeros here are the model's (log entry 4), and so are the device and the model's own fields (log entries 1, 2, 9, 15, 18). -/
def State.reset : State where
  cmdBase := 0x0000#16
  ctlBase := 0x0000#16
  pos := 0#64
  ustat := 0x0000#16
  req := 0x00#8
  arg0 := 0#64
  arg1 := 0#64
  result := 0#64
  tOp := .read
  tBuf := 0#64
  tL := 0#64
  tOff := 0#9
  tLba := 0#64
  tSect := 0#16
  tEnd := 0#64
  loopS := 0#16
  loopW := 0#9
  startSnap := Vector.replicate 256 none
  endSnap := Vector.replicate 256 none
  haveStart := false
  haveEnd := false
  snapshotFault := false
  seq := .uninit
  mem := []
  device := .oracle [] [] 0
  trace := []
  callerQueue := []
  callerIn := 0#64

end Sys2Proof.Machine
end

