-- ==== Sys2Proof/Machine/Memory.lean ====
section
/-! DEFINITION. Memory by address (spec/20_memory.md R51): a list of address and byte pairs in one canonical form,
and the one-byte accesses MemRead and MemWrite (spec/00_scope.md R13). The disk of the reference device uses
the same form, by device position. -/

namespace Sys2Proof.Machine

/-- What a byte nothing has written reads as. For caller memory a DESIGN CHOICE (log entry 3); for the reference
device's disk the convention of spec/95_test_vectors.md ("every DISK byte is 0x00"). -/
def Memory.unlisted : Byte := 0x00#8

/-- The byte at an address. -/
def Memory.get (m : Memory) (a : Nat) : Byte :=
  match m with
  | [] => Memory.unlisted
  | (b, v) :: rest => if a = b then v else Memory.get rest a

/-- The memory with one byte replaced: the address's old cell, if it is listed, is removed, and a new one is listed
unless the byte is what an unlisted address reads as. -/
def Memory.set (m : Memory) (a : Nat) (v : Byte) : Memory :=
  match m with
  | [] => if v = Memory.unlisted then [] else [(a, v)]
  | (b, u) :: rest =>
    if b < a then (b, u) :: Memory.set rest a v
    else if b = a then (if v = Memory.unlisted then rest else (a, v) :: rest)
    else (if v = Memory.unlisted then (b, u) :: rest else (a, v) :: (b, u) :: rest)

/-- Every address of the list is at least `lo`, addresses rise strictly, and no byte is the unlisted one. -/
def Memory.wfFrom (lo : Nat) : Memory → Bool
  | [] => true
  | (a, v) :: rest => decide (lo ≤ a) && decide (v ≠ Memory.unlisted) && Memory.wfFrom (a + 1) rest

/-- The canonical form. -/
def Memory.wf (m : Memory) : Bool := Memory.wfFrom 0 m

/-- No address of the list reaches `n`. -/
def Memory.below (n : Nat) (m : Memory) : Bool := m.all fun c => decide (c.1 < n)

/-- `MemRead(a, 1)` (R13): no value where the address does not exist (R51, log entry 10). -/
def memRead (m : Memory) (a : Nat) : Option Byte :=
  if a < Config.memBytes then some (m.get a) else none

/-- `MemWrite(a, 1, v)` (R13): no memory where the address does not exist (R51, log entry 10). -/
def memWrite (m : Memory) (a : Nat) (v : Byte) : Option Memory :=
  if a < Config.memBytes then some (m.set a v) else none

end Sys2Proof.Machine
end

