-- ==== Sys2Proof/Machine/Flags.lean ====
section
/-! DEFINITION. USTAT and its codes (spec/10_state.md R24, spec/30_encoding.md R86-R88), and the two device status
bits the unit tests (R93). -/

namespace Sys2Proof.Machine

/-- USTAT from its fields (R24): BUSY bit 0, INIT bit 1, FAULT bit 2, bits 7:3 read 0, ERR bits 15:8. -/
def ustatOf (busy init fault : Bool) (err : Byte) : Word16 :=
  (BitVec.setWidth 16 err <<< 8) ||| (BitVec.setWidth 16 (BitVec.ofBool fault) <<< 2)
    ||| (BitVec.setWidth 16 (BitVec.ofBool init) <<< 1) ||| BitVec.setWidth 16 (BitVec.ofBool busy)

/-- USTAT.BUSY, bit 0 (R24). -/
def ustatBusy (u : Word16) : Bool := u.getLsbD 0

/-- USTAT.INIT, bit 1 (R24). -/
def ustatInit (u : Word16) : Bool := u.getLsbD 1

/-- USTAT.FAULT, bit 2 (R24). -/
def ustatFault (u : Word16) : Bool := u.getLsbD 2

/-- USTAT bits 7:3, reserved (R24). -/
def ustatReserved (u : Word16) : BitVec 5 := u.extractLsb' 3 5

/-- USTAT.ERR, bits 15:8 (R24). -/
def ustatErr (u : Word16) : Byte := u.extractLsb' 8 8

/-- BUSY of the machine. -/
def State.busy (s : State) : Bool := ustatBusy s.ustat

/-- INIT of the machine. -/
def State.inited (s : State) : Bool := ustatInit s.ustat

/-- FAULT of the machine. -/
def State.faultFlag (s : State) : Bool := ustatFault s.ustat

/-- ERR of the machine. -/
def State.err (s : State) : Byte := ustatErr s.ustat

/-- The results: codes with which a request completes (R86, R88). -/
inductive ResultCode where
  | ok
  | seekOutOfRange
  | seekUnsupported
  deriving DecidableEq, Repr

/-- The code of a result (R88). -/
def ResultCode.code : ResultCode → Byte
  | .ok => 0x00#8
  | .seekOutOfRange => 0x01#8
  | .seekUnsupported => 0x02#8

/-- The fatal faults (R86, R88, R254). -/
inductive FatalCode where
  | deviceAbsent
  | notInitialised
  | alreadyInitialised
  | illegalRequest
  | requestWhileBusy
  | positionOverflow
  | sectorCountRange
  | baseRange
  | bufferRange
  deriving DecidableEq, Repr

/-- The code of a fatal fault (R88). -/
def FatalCode.code : FatalCode → Byte
  | .deviceAbsent => 0x80#8
  | .notInitialised => 0x81#8
  | .alreadyInitialised => 0x82#8
  | .illegalRequest => 0x83#8
  | .requestWhileBusy => 0x84#8
  | .positionOverflow => 0x85#8
  | .sectorCountRange => 0x86#8
  | .baseRange => 0x87#8
  | .bufferRange => 0x88#8

/-- BSY of a device status byte, bit 7 (R93). -/
def statusBsy (v : Byte) : Bool := v.getLsbD 7

/-- DRQ of a device status byte, bit 3 (R93). -/
def statusDrq (v : Byte) : Bool := v.getLsbD 3

/-- The condition that ends `waitBusy` (R180). -/
def busyClear (v : Byte) : Bool := !statusBsy v

/-- The condition that ends the second loop of `waitReady` (R181). -/
def dataReady (v : Byte) : Bool := statusDrq v

/-- The absent-device test of INIT: the whole byte against `0xFF` (R95). -/
def isAbsent (v : Byte) : Bool := v == Config.absentSentinel

end Sys2Proof.Machine
end

