-- ==== Sys2Proof/Machine/Operands.lean ====
section
/-! DEFINITION. Every operand form: a request's operands in ARG0 and ARG1 (spec/30_encoding.md R84), the device
register bytes (R89-R91), port addresses (spec/40_port_interface.md R110), the byte order of a data word
(spec/20_memory.md R53), and the alignment arithmetic (spec/43_alignment.md R160-R168). -/

namespace Sys2Proof.Machine

/-- INIT's `cmd`, ARG0[15:0] (R84). -/
def initCmdBase (arg0 : Word64) : Word16 := arg0.extractLsb' 0 16

/-- INIT's `ctl`, ARG0[31:16] (R84). -/
def initCtlBase (arg0 : Word64) : Word16 := arg0.extractLsb' 16 16

/-- SEEK.REL's candidate, exact (R141): `Int(POS) + Int(sext_64(delta))`. -/
def seekCandidate (pos delta : Word64) : Int := (pos.toNat : Int) + delta.toInt

/-- The low byte of a data word (R53). -/
def loByte (v : Word16) : Byte := v.extractLsb' 0 8

/-- The high byte of a data word (R53). -/
def hiByte (v : Word16) : Byte := v.extractLsb' 8 8

/-- `{hi, lo}` (R11). -/
def joinBytes (hi lo : Byte) : Word16 := hi ++ lo

/-- A port's offset from its base (R110). -/
def PortName.offset : PortName → Nat
  | .data => 0
  | .errFeat => 1
  | .secCnt => 2
  | .lba0 => 3
  | .lba1 => 4
  | .lba2 => 5
  | .drvSel => 6
  | .statCmd => 7
  | .ctl => 0

/-- A port's base (R110). -/
def PortName.base (p : PortName) (cmdBase ctlBase : Word16) : Word16 :=
  match p with
  | .ctl => ctlBase
  | _ => cmdBase

/-- A port's address, base plus offset (R110); exact while `CMD_BASE <= 0xFFF8` (log entry 20). -/
def PortName.address (p : PortName) (cmdBase ctlBase : Word16) : Word16 :=
  p.base cmdBase ctlBase + BitVec.ofNat 16 p.offset

/-- The address of a port of the machine. -/
def State.portAddr (s : State) (p : PortName) : Word16 := p.address s.cmdBase s.ctlBase

/-- The drive-select byte `0xF0 | lba[27:24]` (R89). -/
def driveSelectByte (lba : Word64) : Byte := 0xF0#8 ||| BitVec.setWidth 8 (lba.extractLsb' 24 4)

/-- The sector-count byte `n[7:0]` (R90, R182). -/
def sectorCountByte (n : Word16) : Byte := n.extractLsb' 0 8

/-- The LBA-low byte `lba[7:0]` (R91). -/
def lbaLowByte (lba : Word64) : Byte := lba.extractLsb' 0 8

/-- The LBA-mid byte `lba[15:8]` (R91). -/
def lbaMidByte (lba : Word64) : Byte := lba.extractLsb' 8 8

/-- The LBA-high byte `lba[23:16]` (R91). -/
def lbaHighByte (lba : Word64) : Byte := lba.extractLsb' 16 8

/-- INIT's device-control byte (R94). -/
def deviceControlByte : Byte := 0x00#8

/-- The sector index of a cursor (R160). -/
def sectorIndex (p : Nat) : Nat := p / Config.sectorBytes

/-- The sector offset of a cursor (R160). -/
def sectorOffset (p : Nat) : Nat := p % Config.sectorBytes

/-- The required sector count, with the branches of R162 in their order. -/
def requiredSectors (p l : Nat) : Nat :=
  let off := p % 512
  let q := l / 512
  let r := l % 512
  if l = 0 then 0
  else if off = 0 ∧ r = 0 then q
  else if r = 0 then q + 1
  else if off + r > 512 then q + 2
  else q + 1

/-- `idx(s, w)` (R166), an exact integer. -/
def wordIndex (s w off : Nat) : Int := ((s * 256 + w) * 2 : Nat) - (off : Int)

/-- The five word classes (R166). -/
inductive WordClass where
  | straddleLow
  | before
  | inside
  | straddleHigh
  | after
  deriving DecidableEq, Repr

/-- The class of a word, tested in the order of R166. -/
def wordClass (idx : Int) (l : Nat) : WordClass :=
  if idx = -1 then .straddleLow
  else if idx < -1 then .before
  else if idx + 1 < l then .inside
  else if idx < l then .straddleHigh
  else .after

/-- The buffer indices a word moves, in the order it moves them (R168, R202). -/
def movedIndices (idx : Int) (l : Nat) : List Nat :=
  match wordClass idx l with
  | .straddleLow => [0]
  | .before => []
  | .inside => [idx.toNat, idx.toNat + 1]
  | .straddleHigh => [idx.toNat]
  | .after => []

/-- `idx` of the word the machine is at. -/
def State.wordIdx (s : State) : Int := wordIndex s.loopS.toNat s.loopW.toNat s.tOff.toNat

/-- The class of the word the machine is at. -/
def State.wordCls (s : State) : WordClass := wordClass s.wordIdx s.tL.toNat

/-- The sector a leg starts at: T_LBA for the transfers and the start snapshot (R182, R221), `T_END div 512` for the
end snapshot (R222). -/
def State.legLba (s : State) : Leg → Word64
  | .read => s.tLba
  | .snapStart => s.tLba
  | .snapEnd => BitVec.ofNat 64 (sectorIndex s.tEnd.toNat)
  | .write => s.tLba

/-- The sector count a leg programs: T_SECT for the transfers (R182), 1 for a snapshot read (R204). -/
def State.legCount (s : State) : Leg → Word16
  | .read => s.tSect
  | .snapStart => 1#16
  | .snapEnd => 1#16
  | .write => s.tSect

/-- The device command of a leg (R200, R204, R220). -/
def Leg.command : Leg → Instr
  | .read => .readSectors
  | .snapStart => .readSectors
  | .snapEnd => .readSectors
  | .write => .writeSectors

/-- The value a caller's read of a register returns (R21-R29); REQ reads 0x00 (R26). -/
def State.callerRead (s : State) : CallerReg → Word64
  | .cmdBase => BitVec.setWidth 64 s.cmdBase
  | .ctlBase => BitVec.setWidth 64 s.ctlBase
  | .pos => s.pos
  | .ustat => BitVec.setWidth 64 s.ustat
  | .req => 0#64
  | .arg0 => s.arg0
  | .arg1 => s.arg1
  | .result => s.result

end Sys2Proof.Machine
end

