-- ==== Sys2Proof/Machine/Device.lean ====
section
/-! DEFINITION. What the device does with a port transaction: any device (spec/00_scope.md R8, R113-R116), the
present reference device (spec/20_memory.md R75-R77) and the absent one (R78). -/

namespace Sys2Proof.Machine

/-- The reference device after its reset: DISK as given, registers 0, phase IDLE (R75). -/
def RefDevice.fresh (disk : Memory) : RefDevice where
  disk := disk
  feat := 0#8
  sc := 0#8
  lb0 := 0#8
  lb1 := 0#8
  lb2 := 0#8
  ds := 0#8
  dctl := 0#8
  phase := .idle

/-- The device position of byte `b` of sector `lba` (R55). -/
def diskPos (lba : BitVec 28) (b : Nat) : Nat := lba.toNat * Config.sectorBytes + b

/-- The status byte: DRQ in a data phase, 0 when idle, never busy (R76). -/
def RefDevice.status (d : RefDevice) : Byte :=
  match d.phase with
  | .idle => 0x00#8
  | .pioIn _ _ _ => 0x08#8
  | .pioOut _ _ _ => 0x08#8

/-- `{DS[3:0], LB2, LB1, LB0}` (R76). -/
def RefDevice.lba (d : RefDevice) : BitVec 28 := d.ds.extractLsb' 0 4 ++ (d.lb2 ++ (d.lb1 ++ d.lb0))

/-- The sector count; a count of 0 means 256 (R76). -/
def RefDevice.count (d : RefDevice) : Nat := if d.sc = 0#8 then 256 else d.sc.toNat

/-- A command byte arrives (R76). -/
def RefDevice.command (d : RefDevice) (c : Byte) : RefDevice :=
  if c = 0x20#8 then { d with phase := .pioIn d.lba d.count 0 }
  else if c = 0x30#8 then { d with phase := .pioOut d.lba d.count 0 }
  else { d with phase := .idle }

/-- The place in the stream after a data transaction at `(lba, left, w)`, none at its end (R77). -/
def streamNext (lba : BitVec 28) (left w : Nat) : Option (BitVec 28 × Nat × Nat) :=
  if w < 255 then some (lba, left, w + 1)
  else if 1 < left then some (lba + 1#28, left - 1, 0)
  else none

/-- The read phase after a data read (R77). -/
def pioInNext (lba : BitVec 28) (left w : Nat) : DevPhase :=
  match streamNext lba left w with
  | some (lba', left', w') => .pioIn lba' left' w'
  | none => .idle

/-- The write phase after a data write (R77). -/
def pioOutNext (lba : BitVec 28) (left w : Nat) : DevPhase :=
  match streamNext lba left w with
  | some (lba', left', w') => .pioOut lba' left' w'
  | none => .idle

/-- Word `w` of a sector of the disk, low byte first (R53, R76). -/
def diskWord (disk : Memory) (lba : BitVec 28) (w : Nat) : Word16 :=
  joinBytes (disk.get (diskPos lba (2 * w + 1))) (disk.get (diskPos lba (2 * w)))

/-- Word `w` of a sector replaced (R76). -/
def setDiskWord (disk : Memory) (lba : BitVec 28) (w : Nat) (v : Word16) : Memory :=
  (disk.set (diskPos lba (2 * w)) (loByte v)).set (diskPos lba (2 * w + 1)) (hiByte v)

/-- An 8-bit read of the reference device (R76); a port R76 does not list answers a free value (log entry 16). -/
def RefDevice.in8 (d : RefDevice) (p : PortName) : Byte :=
  match p with
  | .statCmd => d.status
  | .ctl => d.status
  | q => Config.freeUnlisted8 q.offset

/-- An 8-bit write of the reference device (R76); `P_DATA` has no 8-bit write in R76 and absorbs it (log entry 16). The
device takes the port by its name, so that a write to `P_CTL` reaches DCTL even where CTL_BASE is the address of a
command-block port: the model's choice (log entry 26). -/
def RefDevice.out8 (d : RefDevice) (p : PortName) (v : Byte) : RefDevice :=
  match p with
  | .data => d
  | .errFeat => { d with feat := v }
  | .secCnt => { d with sc := v }
  | .lba0 => { d with lb0 := v }
  | .lba1 => { d with lb1 := v }
  | .lba2 => { d with lb2 := v }
  | .drvSel => { d with ds := v }
  | .statCmd => d.command v
  | .ctl => { d with dctl := v }

/-- A 16-bit read of `P_DATA` of the reference device (R76). -/
def RefDevice.in16 (d : RefDevice) : Word16 × RefDevice :=
  match d.phase with
  | .pioIn lba left w => (diskWord d.disk lba w, { d with phase := pioInNext lba left w })
  | _ => (0x0000#16, d)

/-- A 16-bit write of `P_DATA` of the reference device (R76). -/
def RefDevice.out16 (d : RefDevice) (v : Word16) : RefDevice :=
  match d.phase with
  | .pioOut lba left w => { d with disk := setDiskWord d.disk lba w v, phase := pioOutNext lba left w }
  | _ => d

/-- An 8-bit read: the answer and the device after it (R113). -/
def Device.in8 (d : Device) (p : PortName) : Byte × Device :=
  match d with
  | .oracle (v :: vs) ws n => (v, .oracle vs ws n)
  | .oracle [] ws n => (Config.freeAnswer8 n, .oracle [] ws (n + 1))
  | .present r => (r.in8 p, .present r)
  | .absent => (0xFF#8, .absent)

/-- An 8-bit write: the device after it (R114). -/
def Device.out8 (d : Device) (p : PortName) (v : Byte) : Device :=
  match d with
  | .oracle vs ws n => .oracle vs ws n
  | .present r => .present (r.out8 p v)
  | .absent => .absent

/-- A 16-bit read of `P_DATA`: the answer and the device after it (R115). -/
def Device.in16 (d : Device) : Word16 × Device :=
  match d with
  | .oracle vs (w :: ws) n => (w, .oracle vs ws n)
  | .oracle vs [] n => (Config.freeAnswer16 n, .oracle vs [] (n + 1))
  | .present r => (r.in16.1, .present r.in16.2)
  | .absent => (0xFFFF#16, .absent)

/-- A 16-bit write of `P_DATA`: the device after it (R116). -/
def Device.out16 (d : Device) (v : Word16) : Device :=
  match d with
  | .oracle vs ws n => .oracle vs ws n
  | .present r => .present (r.out16 v)
  | .absent => .absent

end Sys2Proof.Machine
end

