-- ==== Sys2Proof/Machine/Ops.lean ====
section
/-! DEFINITION. The shared operations: the four port primitives (spec/40_port_interface.md R113-R116), raising a fatal
fault and hardware reset, the one way out of it (spec/60_exceptions.md R255, R259, spec/70_reset_and_hazards.md R280),
completing a request (R257), the acceptance checks (R256) and acceptance (spec/10_state.md R39). -/

namespace Sys2Proof.Machine

/-- `PortIn8(p)` (R113). -/
def portIn8 (p : PortName) (s : State) : Byte × State :=
  ((s.device.in8 p).1,
    { s with
      device := (s.device.in8 p).2
      trace := .in8 p (s.portAddr p) (s.device.in8 p).1 :: s.trace })

/-- `PortOut8(p, v)` (R114). -/
def portOut8 (p : PortName) (v : Byte) (s : State) : State :=
  { s with
    device := s.device.out8 p v
    trace := .out8 p (s.portAddr p) v :: s.trace }

/-- `PortIn16(P_DATA)` (R115). -/
def portIn16 (s : State) : Word16 × State :=
  (s.device.in16.1,
    { s with
      device := s.device.in16.2
      trace := .in16 (s.portAddr .data) s.device.in16.1 :: s.trace })

/-- `PortOut16(P_DATA, v)` (R116). -/
def portOut16 (v : Word16) (s : State) : State :=
  { s with
    device := s.device.out16 v
    trace := .out16 (s.portAddr .data) v :: s.trace }

/-- The sequencer goes to a point of the running request. -/
def goPoint (pt : Point) (s : State) : State := { s with seq := .run pt }

/-- `POS <- p` (R23). -/
def setPos (p : Word64) (s : State) : State := { s with pos := p }

/-- Caller memory after an access (R13). -/
def setMem (m : Memory) (s : State) : State := { s with mem := m }

/-- INIT's bases (R21, R22). -/
def setBases (cmd ctl : Word16) (s : State) : State := { s with cmdBase := cmd, ctlBase := ctl }

/-- The loop variables at the start of a data phase: sector 0, word 0 (R31). -/
def zeroLoops (s : State) : State := { s with loopS := 0#16, loopW := 0#9 }

/-- The loop variables at the next word of a sector (R31). -/
def bumpWord (s : State) : State := { s with loopW := s.loopW + 1#9 }

/-- The loop variables at the next sector's first word (R31). -/
def bumpSector (s : State) : State := { s with loopS := s.loopS + 1#16, loopW := 0#9 }

/-- Entering FAULTED with a code (R255): ERR, FAULT and BUSY of USTAT and SEQ change, nothing else. -/
def enterFaulted (code : Byte) (s : State) : State :=
  { s with
    ustat := ustatOf false s.inited true code
    seq := .faulted }

/-- `raise Fault(code)` (R255). -/
def raiseFault (c : FatalCode) (s : State) : State := enterFaulted c.code s

/-- The model raises UNWRITTEN_SNAPSHOT and enters FAULTED (R262); the unit has no code for it, so ERR is a free value
(log entry 9). -/
def raiseUnwrittenSnapshot (s : State) : State :=
  { enterFaulted Config.unwrittenSnapshotErr s with snapshotFault := true }

/-- Hardware reset (R280): the unit's state as R42 gives it; caller memory, the device,
the trace, the queue and the caller's last read stay (log entry 22). -/
def hardReset (s : State) : State :=
  { State.reset with
    mem := s.mem
    device := s.device
    trace := s.trace
    callerQueue := s.callerQueue
    callerIn := s.callerIn }

/-- `complete(OK, result)` (R257). -/
def completeOk (r : Word64) (s : State) : State :=
  { s with
    ustat := ustatOf false s.inited s.faultFlag ResultCode.ok.code
    result := r
    seq := .idle }

/-- `complete(err, -)` for an error result: RESULT is unchanged (R257, R143). -/
def completeErr (e : ResultCode) (s : State) : State :=
  { s with
    ustat := ustatOf false s.inited s.faultFlag e.code
    seq := .idle }

/-- `USTAT.INIT <- 1` (R130). -/
def setInited (s : State) : State :=
  { s with ustat := ustatOf s.busy true s.faultFlag s.err }

/-- BUSY is set and the word stands in REQ: a request is accepted (R39; REQ: log entry 7). -/
def accepted (i : Instr) (s : State) : State :=
  { s with
    ustat := ustatOf true s.inited s.faultFlag s.err
    req := encode i }

/-- Checks 7 to 9 of R256, those of READ and WRITE, first failure first. -/
def transferFault (s : State) : Option FatalCode :=
  if s.pos.toNat + s.arg1.toNat > Config.posLimit - 1 then some .positionOverflow
  else if s.arg0.toNat + s.arg1.toNat > Config.memBytes then some .bufferRange
  else if requiredSectors s.pos.toNat s.arg1.toNat > Config.maxSectors then some .sectorCountRange
  else none

/-- Checks 4 and 6 of R256, those of INIT. -/
def initFault (s : State) : Option FatalCode :=
  if s.inited then some .alreadyInitialised
  else if (initCmdBase s.arg0).toNat > Config.maxCmdBase then some .baseRange
  else none

/-- Check 5 of R256, that of a request other than INIT. -/
def handleFault (s : State) : Option FatalCode :=
  if s.inited then none else some .notInitialised

/-- The check of SEEK.REL (R141): a candidate above `2^64 - 1`. R260: "Every fault except
DEVICE_ABSENT is raised at acceptance, before any state other than USTAT changes". -/
def seekFault (s : State) : Option FatalCode :=
  if seekCandidate s.pos s.arg0 > (Config.posLimit : Int) - 1 then some .positionOverflow else none

/-- Checks 4 to 9 of R256 for a request, and SEEK.REL's own (R141). A device command is no request and has no check. -/
def acceptFault (i : Instr) (s : State) : Option FatalCode :=
  match i with
  | .init => initFault s
  | .read => (handleFault s).or (transferFault s)
  | .write => (handleFault s).or (transferFault s)
  | .seekAbs => handleFault s
  | .seekRel => (handleFault s).or (seekFault s)
  | .seekEnd => handleFault s
  | .flush => handleFault s
  | .rsc => handleFault s
  | .readSectors => none
  | .writeSectors => none
  | .cacheFlush => none

/-- Checks 1 and 2 of R256, then what follows them. -/
def gated (s : State) (k : State → State) : State :=
  if s.seq = .faulted then s
  else if s.busy then raiseFault .requestWhileBusy s
  else k s

/-- A request word of a legal request is written to REQ (R39, R256): ignored, a fault, or accepted with what the
request does in its acceptance step. -/
def request (i : Instr) (body : State → State) (s : State) : State :=
  gated s fun s =>
    match acceptFault i s with
    | some c => raiseFault c s
    | none => body (accepted i s)

/-- An illegal request word is written to REQ (R83, R256 check 3). -/
def illegalWord (s : State) : State := gated s (raiseFault .illegalRequest)

/-- One status poll (R180, R181): the loop's next iteration, or the point after it. -/
def poll (done : Byte → Bool) (pt : Point) (s : State) : State :=
  if done (portIn8 .statCmd s).1 then goPoint pt (portIn8 .statCmd s).2 else (portIn8 .statCmd s).2

/-- The transfer registers latched when READ or WRITE is accepted (R30). -/
def latchTransfer (op : TransferOp) (s : State) : State :=
  { s with
    tOp := op
    tBuf := s.arg0
    tL := s.arg1
    tOff := BitVec.ofNat 9 (sectorOffset s.pos.toNat)
    tLba := BitVec.ofNat 64 (sectorIndex s.pos.toNat)
    tSect := BitVec.ofNat 16 (requiredSectors s.pos.toNat s.arg1.toNat)
    tEnd := s.pos + s.arg1 }

/-- The end of a READ or a WRITE: the cursor moves, RESULT is T_L, the request completes (R200, R220). -/
def finishTransfer (newPos : Word64) (s : State) : State :=
  completeOk s.tL (setPos newPos s)

/-- The loop variables after a word of READ's or WRITE's data phase (R201, R224): the next word, the next sector (whose
`waitReady` comes first), or the end of the phase. -/
def nextWord (l : Leg) (done : State → State) (s : State) : State :=
  if s.loopW.toNat < 255 then bumpWord s
  else if s.loopS.toNat + 1 < s.tSect.toNat then goPoint (.leg l .wrBsy) (bumpSector s)
  else done s

/-- A device command byte goes to `P_STATCMD` (R184, R185). -/
def issue (c : Instr) (s : State) : State := portOut8 .statCmd (encode c) s

end Sys2Proof.Machine
end

