-- ==== Sys2Proof/Machine/Alignment.lean ====
section
/-! DEFINITION. The request RSC (spec/43_alignment.md R164); its arithmetic is `requiredSectors` (R162). -/

namespace Sys2Proof.Machine

/-- `RSC` past its checks (R164). -/
def rscBody (s : State) : State :=
  completeOk (BitVec.ofNat 64 (requiredSectors s.pos.toNat s.arg0.toNat)) s

/-- `RSC` (R164). -/
def execRsc (s : State) : Result := .next (request .rsc rscBody s)

end Sys2Proof.Machine
end

