-- ==== Sys2Proof/Machine/Command.lean ====
section
/-! DEFINITION. Command issuance (spec/44_command_issue.md): register programming (R182), the three device commands
(R184, R185) and the request FLUSH (R186). -/

namespace Sys2Proof.Machine

/-- `FLUSH` past its checks (R186). -/
def flushBody (s : State) : State := completeOk 0#64 s

/-- `FLUSH` (R186). -/
def execFlush (s : State) : Result := .next (request .flush flushBody s)

/-- The command the sequencer has to issue next, if its point is a command point (R188). -/
def dueCommand (q : Seq) : Option Instr :=
  match q with
  | .run (.leg l .cmd) => some l.command
  | .run .flCmd => some .cacheFlush
  | _ => none

/-- The leg whose command is due. -/
def commandLeg (q : Seq) : Option Leg :=
  match q with
  | .run (.leg l .cmd) => some l
  | _ => none

/-- A transfer command at its CMD point: the byte goes out and `waitReady` of the first sector comes next, at
word 0 of sector 0 (R184, R188, R201, R204, R224; the loop variables: log entry 6). -/
def issueTransfer (c : Instr) (s : State) : Result :=
  match commandLeg s.seq with
  | some l =>
    if l.command = c then .next (goPoint (.leg l .wrBsy) (zeroLoops (issue c s)))
    else .refused .commandNotDue
  | none => .refused .commandNotDue

/-- `READ_SECTORS`: `issue(0x20)` (R184). -/
def execReadSectors (s : State) : Result := issueTransfer .readSectors s

/-- `WRITE_SECTORS`: `issue(0x30)` (R184). -/
def execWriteSectors (s : State) : Result := issueTransfer .writeSectors s

/-- `CACHE_FLUSH`: the command write of `cacheFlush()` (R185), in whose step the WRITE completes (R220, R226). -/
def execCacheFlush (s : State) : Result :=
  if s.seq = .run .flCmd then .next (finishTransfer s.tEnd (issue .cacheFlush s))
  else .refused .commandNotDue

/-- The step of one register write of `beginTransfer` (R182), and the point after it. -/
def programStep (p : PortName) (v : Byte) (pt : Point) (s : State) : State := goPoint pt (portOut8 p v s)

end Sys2Proof.Machine
end

