-- ==== Sys2Proof/Machine/Init.lean ====
section
/-! DEFINITION. INIT (spec/41_init.md R130): its acceptance step and the steps of its two port transactions. -/

namespace Sys2Proof.Machine

/-- INIT's acceptance step past its checks: the bases are written, the status read is pending (log entry 8). -/
def beginInit (s : State) : State :=
  goPoint .initStatus (setBases (initCmdBase s.arg0) (initCtlBase s.arg0) s)

/-- `INIT` (R130). -/
def execInit (s : State) : Result := .next (request .init beginInit s)

/-- The step of INIT's status read: DEVICE_ABSENT on the sentinel (R130, R95). -/
def initStatusStep (s : State) : State :=
  if isAbsent (portIn8 .statCmd s).1 then raiseFault .deviceAbsent (portIn8 .statCmd s).2
  else goPoint .initControl (portIn8 .statCmd s).2

/-- The step of INIT's device-control write, which completes it (R130, R94). -/
def initControlStep (s : State) : State :=
  completeOk 0#64 (setInited (setPos 0#64 (portOut8 .ctl deviceControlByte s)))

end Sys2Proof.Machine
end

