-- ==== Sys2Proof/Machine/Read.lean ====
section
/-! DEFINITION. The read path (spec/45_read_path.md): READ's acceptance (R200), the scatter of a data word (R202) and
the step of one data read (R201). -/

namespace Sys2Proof.Machine

/-- `READ` past its checks (R200): the transfer registers are latched; a length of 0 completes, any other goes to
the busy-wait before programming. -/
def readBody (s : State) : State :=
  if s.arg1 = 0#64 then completeOk 0#64 (latchTransfer .read s)
  else goPoint (.leg .read .bw) (latchTransfer .read s)

/-- `READ` (R200). -/
def execRead (s : State) : Result := .next (request .read readBody s)

/-- `scatter(idx, v)` (R202): caller memory after it, none where an address does not exist. -/
def scatter (buf : Nat) (idx : Int) (l : Nat) (v : Word16) (m : Memory) : Option Memory :=
  match wordClass idx l with
  | .straddleLow => memWrite m (buf + 0) (hiByte v)
  | .before => some m
  | .inside =>
    match memWrite m (buf + idx.toNat) (loByte v) with
    | some m' => memWrite m' (buf + idx.toNat + 1) (hiByte v)
    | none => none
  | .straddleHigh => memWrite m (buf + idx.toNat) (loByte v)
  | .after => some m

/-- The end of READ: "Cursor advances by L" (R200). -/
def endOfRead (s : State) : State := finishTransfer (s.pos + s.tL) s

/-- The step of READ's data word `(s, w)` (R201); the last one completes the request (R200). -/
def readWordStep (s : State) : Result :=
  match scatter s.tBuf.toNat s.wordIdx s.tL.toNat (portIn16 s).1 s.mem with
  | some m => .next (nextWord .read endOfRead (setMem m (portIn16 s).2))
  | none => .fault .outsideCallerMemory

end Sys2Proof.Machine
end

