-- ==== Sys2Proof/Machine/Seek.lean ====
section
/-! DEFINITION. The seeks (spec/42_seek.md R140-R143). None makes a port transaction; each completes in its acceptance
step (spec/10_state.md R40). -/

namespace Sys2Proof.Machine

/-- The cursor moves to a position, which is also the result (R140, R141). -/
def moveCursor (p : Word64) (s : State) : State := completeOk p (setPos p s)

/-- `SEEK.ABS` past its checks (R140). -/
def seekAbsBody (s : State) : State := moveCursor s.arg0 s

/-- `SEEK.REL` past its checks (R141); POSITION_OVERFLOW is one of them (`seekFault`). -/
def seekRelBody (s : State) : State :=
  if seekCandidate s.pos s.arg0 < 0 then completeErr .seekOutOfRange s
  else moveCursor (BitVec.ofInt 64 (seekCandidate s.pos s.arg0)) s

/-- `SEEK.END` past its checks (R142). -/
def seekEndBody (s : State) : State := completeErr .seekUnsupported s

/-- `SEEK.ABS` (R140). -/
def execSeekAbs (s : State) : Result := .next (request .seekAbs seekAbsBody s)

/-- `SEEK.REL` (R141). -/
def execSeekRel (s : State) : Result := .next (request .seekRel seekRelBody s)

/-- `SEEK.END` (R142). -/
def execSeekEnd (s : State) : Result := .next (request .seekEnd seekEndBody s)

end Sys2Proof.Machine
end

