-- ==== Sys2Proof/Machine/Write.lean ====
section
/-! DEFINITION. The write path (spec/46_write_path.md): WRITE's acceptance (R220), the boundary snapshots (R221, R222),
the merge of a data word (R225) and the step of one data write (R224). -/

namespace Sys2Proof.Machine

/-- Where WRITE goes after the start snapshot, or without one: to the end snapshot if the end is unaligned (R222), else
to its own command. -/
def afterStartSnap (s : State) : Point :=
  if s.tEnd.toNat % 512 ≠ 0 then .leg .snapEnd .bw else .leg .write .bw

/-- Where WRITE goes first: to the start snapshot if the cursor is unaligned (R221). -/
def firstWritePoint (s : State) : Point :=
  if s.tOff ≠ 0#9 then .leg .snapStart .bw else afterStartSnap s

/-- HAVE_START and HAVE_END are cleared (R33, R220). -/
def clearSnaps (s : State) : State := { s with haveStart := false, haveEnd := false }

/-- WRITE's latching (R30, R33). -/
def latchWrite (s : State) : State := clearSnaps (latchTransfer .write s)

/-- `WRITE` past its checks (R220). -/
def writeBody (s : State) : State :=
  if s.arg1 = 0#64 then completeOk 0#64 (latchWrite s) else goPoint (firstWritePoint (latchWrite s)) (latchWrite s)

/-- `WRITE` (R220). -/
def execWrite (s : State) : Result := .next (request .write writeBody s)

/-- An element of a snapshot, no value where its flag is 0 or the element is unread (R33). -/
def snapElem (have_ : Bool) (a : Snapshot) (w : Nat) : Option Word16 :=
  if have_ then (a[w]?).getD none else none

/-- Element `w` of START_SNAP is kept, `w` the word the machine is at (R204). -/
def keepStart (v : Word16) (s : State) : State :=
  { s with startSnap := s.startSnap.setIfInBounds s.loopW.toNat (some v) }

/-- Element `w` of END_SNAP is kept (R204). -/
def keepEnd (v : Word16) (s : State) : State :=
  { s with endSnap := s.endSnap.setIfInBounds s.loopW.toNat (some v) }

/-- The loop variable after a word of a snapshot's one sector (R204): the next word, or the end of the read. -/
def nextSnapWord (done : State → State) (s : State) : State :=
  if s.loopW.toNat < 255 then bumpWord s else done s

/-- `HAVE_START <- 1` (R221). -/
def markStart (s : State) : State := { s with haveStart := true }

/-- `HAVE_END <- 1` (R222). -/
def markEnd (s : State) : State := { s with haveEnd := true }

/-- The end of the start snapshot: its flag is set in the step of the 256th word (R221). -/
def endOfStartSnap (s : State) : State := goPoint (afterStartSnap s) (markStart s)

/-- The end of the end snapshot (R222). -/
def endOfEndSnap (s : State) : State := goPoint (.leg .write .bw) (markEnd s)

/-- The step of a data word of the start snapshot (R204, R221). -/
def snapStartStep (s : State) : State :=
  nextSnapWord endOfStartSnap (keepStart (portIn16 s).1 (portIn16 s).2)

/-- The step of a data word of the end snapshot (R204, R222). -/
def snapEndStep (s : State) : State :=
  nextSnapWord endOfEndSnap (keepEnd (portIn16 s).1 (portIn16 s).2)

/-- A byte of the buffer for the merge. -/
def bufferByte (s : State) (i : Nat) : Except MergeError Byte :=
  match memRead s.mem (s.tBuf.toNat + i) with
  | some v => .ok v
  | none => .error .outsideCallerMemory

/-- START_SNAP[w] for the merge; UNWRITTEN_SNAPSHOT where it holds no value (R262). -/
def startWord (s : State) : Except MergeError Word16 :=
  match snapElem s.haveStart s.startSnap s.loopW.toNat with
  | some v => .ok v
  | none => .error .unwrittenSnapshot

/-- END_SNAP[w] for the merge; UNWRITTEN_SNAPSHOT where it holds no value (R262). -/
def endWord (s : State) : Except MergeError Word16 :=
  match snapElem s.haveEnd s.endSnap s.loopW.toNat with
  | some v => .ok v
  | none => .error .unwrittenSnapshot

/-- `merge(s, w)` (R225): the word to push, by its class. -/
def mergeWord (s : State) : Except MergeError Word16 :=
  match s.wordCls with
  | .straddleLow =>
    match startWord s, bufferByte s 0 with
    | .ok st, .ok b => .ok (joinBytes b (loByte st))
    | .error e, _ => .error e
    | _, .error e => .error e
  | .before => startWord s
  | .inside =>
    match bufferByte s s.wordIdx.toNat, bufferByte s (s.wordIdx.toNat + 1) with
    | .ok lo, .ok hi => .ok (joinBytes hi lo)
    | .error e, _ => .error e
    | _, .error e => .error e
  | .straddleHigh =>
    match endWord s, bufferByte s s.wordIdx.toNat with
    | .ok en, .ok b => .ok (joinBytes (hiByte en) b)
    | .error e, _ => .error e
    | _, .error e => .error e
  | .after => endWord s

/-- The step of WRITE's data word `(s, w)` (R224); the closing flush comes after the last one (R226). A merge that reads
an unwritten snapshot element enters FAULTED instead, before any port transaction (R262). -/
def writeWordStep (s : State) : Result :=
  match mergeWord s with
  | .ok v => .next (nextWord .write (goPoint .flBsy) (portOut16 v s))
  | .error .unwrittenSnapshot => .next (raiseUnwrittenSnapshot s)
  | .error .outsideCallerMemory => .fault .outsideCallerMemory

end Sys2Proof.Machine
end

