-- ==== Sys2Proof/Machine/Dispatch.lean ====
section
/-! DEFINITION. The one dispatch from an instruction to its meaning. -/

namespace Sys2Proof.Machine

def exec (i : Instr) (s : State) : Host.Outcome State Fault Refusal :=
  match i with
  | .init => Sys2Proof.Machine.execInit s
  | .seekAbs => Sys2Proof.Machine.execSeekAbs s
  | .seekRel => Sys2Proof.Machine.execSeekRel s
  | .seekEnd => Sys2Proof.Machine.execSeekEnd s
  | .read => Sys2Proof.Machine.execRead s
  | .write => Sys2Proof.Machine.execWrite s
  | .flush => Sys2Proof.Machine.execFlush s
  | .rsc => Sys2Proof.Machine.execRsc s
  | .readSectors => Sys2Proof.Machine.execReadSectors s
  | .writeSectors => Sys2Proof.Machine.execWriteSectors s
  | .cacheFlush => Sys2Proof.Machine.execCacheFlush s

end Sys2Proof.Machine
end

