-- ==== Sys2Proof/Machine/Sequencer.lean ====
section
/-! DEFINITION. The unit's own step, by the point of the running request (spec/10_state.md R37, R40(b)): one port
transaction, the buffer bytes it moves and the updates that follow it. The command writes are the device commands
of the opcode table and go through `exec`. -/

namespace Sys2Proof.Machine

/-- The step of a data word, by its leg (R201, R204, R224). -/
def xferStep (l : Leg) (s : State) : Result :=
  match l with
  | .read => readWordStep s
  | .snapStart => .next (snapStartStep s)
  | .snapEnd => .next (snapEndStep s)
  | .write => writeWordStep s

/-- The step of a point of a command sequence: `beginTransfer` (R182), the command (R184), `waitReady` (R181) and the
data words. -/
def legStep (l : Leg) (p : Stage) (s : State) : Result :=
  match p with
  | .bw => .next (poll busyClear (.leg l .sel) s)
  | .sel => .next (programStep .drvSel (driveSelectByte (s.legLba l)) (.leg l .cnt) s)
  | .cnt => .next (programStep .secCnt (sectorCountByte (s.legCount l)) (.leg l .l0) s)
  | .l0 => .next (programStep .lba0 (lbaLowByte (s.legLba l)) (.leg l .l1) s)
  | .l1 => .next (programStep .lba1 (lbaMidByte (s.legLba l)) (.leg l .l2) s)
  | .l2 => .next (programStep .lba2 (lbaHighByte (s.legLba l)) (.leg l .cmd) s)
  | .cmd => exec l.command s
  | .wrBsy => .next (poll busyClear (.leg l .wrDrq) s)
  | .wrDrq => .next (poll dataReady (.leg l .xfer) s)
  | .xfer => xferStep l s

/-- The step of a point (R37). -/
def pointStep (pt : Point) (s : State) : Result :=
  match pt with
  | .initStatus => .next (initStatusStep s)
  | .initControl => .next (initControlStep s)
  | .leg l p => legStep l p s
  | .flBsy => .next (poll busyClear .flCmd s)
  | .flCmd => exec .cacheFlush s

/-- The unit's own step: none unless a request is running (R281, log entry 21). -/
def unitStep (s : State) : Result :=
  match s.seq with
  | .run pt => pointStep pt s
  | .uninit => .next s
  | .idle => .next s
  | .faulted => .next s

end Sys2Proof.Machine
end

