-- ==== Sys2Proof/Machine/Turn.lean ====
section
/-! DEFINITION. Whose step it is and what the caller's moves do (spec/00_scope.md R8, spec/10_state.md R39, R40), and how
an instruction is put where the next step finds it. -/

namespace Sys2Proof.Machine

/-- The moves still to come. -/
def setQueue (q : List CallerMove) (s : State) : State := { s with callerQueue := q }

/-- What the caller's read returned. -/
def setCallerIn (v : Word64) (s : State) : State := { s with callerIn := v }

/-- `ARG0 <- v` (R27). -/
def setArg0 (v : Word64) (s : State) : State := { s with arg0 := v }

/-- `ARG1 <- v` (R28). -/
def setArg1 (v : Word64) (s : State) : State := { s with arg1 := v }

/-- A word is written to REQ (R39): the decoded request runs, or the word is illegal (R83). -/
def writeReq (q : Byte) (s : State) : Result :=
  match decodeRequest q with
  | .ok i => exec i s
  | .error _ => .next (illegalWord s)

/-- A READ or a WRITE is running (R68: "For the duration of each request"). -/
def transferRunning (q : Seq) : Bool :=
  match q with
  | .run (.leg _ _) => true
  | .run .flBsy => true
  | .run .flCmd => true
  | _ => false

/-- The address belongs to the buffer of the running request (R68). -/
def ownedByUnit (s : State) (a : Nat) : Bool :=
  transferRunning s.seq && decide (s.tBuf.toNat ≤ a) && decide (a < s.tBuf.toNat + s.tL.toNat)

/-- The caller writes a byte of its memory; inside the buffer of a running request it has no such move (R68). -/
def callerWriteMem (a : Word64) (v : Byte) (s : State) : Result :=
  if ownedByUnit s a.toNat then .refused .ownershipBroken
  else .next (setMem (s.mem.set a.toNat v) s)

/-- The caller reads a byte of its memory; inside the buffer of a running request it has no such move (R68). -/
def callerReadMem (a : Word64) (s : State) : Result :=
  if ownedByUnit s a.toNat then .refused .ownershipBroken
  else .next (setCallerIn (BitVec.setWidth 64 (s.mem.get a.toNat)) s)

/-- The caller polls until BUSY=0 (R96, R258): `again` is the state with the poll still to come. -/
def awaitDone (again rest : State) : Result :=
  if rest.busy then unitStep again else .next rest

/-- One move of the queue: `s` is the state with the move taken off it, `again` the state with it still there. -/
def callerMove (m : CallerMove) (again s : State) : Result :=
  match m with
  | .writeReq q => writeReq q s
  | .writeArg0 v => .next (setArg0 v s)
  | .writeArg1 v => .next (setArg1 v s)
  | .readReg r => .next (setCallerIn (s.callerRead r) s)
  | .writeMem a v => callerWriteMem a v s
  | .readMem a => callerReadMem a s
  | .yield => unitStep s
  | .awaitDone => awaitDone again s
  | .hardReset => .next (hardReset s)

/-- One step of the machine: the caller's next move, or the unit's own step when the caller has none (log entry 1). -/
def turn (s : State) : Result :=
  match s.callerQueue with
  | [] => unitStep s
  | m :: rest => callerMove m s (setQueue rest s)

/-- The caller's next move is a write of `q` to REQ. -/
def placeRequest (q : Byte) (s : State) : State :=
  setQueue (.writeReq q :: s.callerQueue) s

/-- The sequencer stands at a command point, a request is running with a handle, and the unit moves next. -/
def placeAt (pt : Point) (s : State) : State :=
  { s with
    seq := .run pt
    ustat := ustatOf true true false s.err
    callerQueue := .yield :: s.callerQueue }

/-- The point at which the unit issues a device command: of the three command points of READ SECTORS, READ's own. -/
def commandPoint (i : Instr) : Option Point :=
  match i with
  | .readSectors => some (.leg .read .cmd)
  | .writeSectors => some (.leg .write .cmd)
  | .cacheFlush => some .flCmd
  | _ => none

/-- A written request, with its operands (R96). -/
inductive WrittenRequest where
  | init (cmd ctl : Word16)
  | seekAbs (pos : Word64)
  | seekRel (delta : Int)
  | seekEnd (delta : Int)
  | read (buf len : Word64)
  | write (buf len : Word64)
  | flush
  | rsc (len : Word64)
  deriving DecidableEq, Repr

/-- The request of a written request (R96, R97). -/
def writtenInstr : WrittenRequest → Instr
  | .init _ _ => .init
  | .seekAbs _ => .seekAbs
  | .seekRel _ => .seekRel
  | .seekEnd _ => .seekEnd
  | .read _ _ => .read
  | .write _ _ => .write
  | .flush => .flush
  | .rsc _ => .rsc

/-- The writes of its operands, placed as R84 says. A delta outside the signed 64-bit range is taken modulo `2^64`: the
model's choice (log entry 27). -/
def operandMoves : WrittenRequest → List CallerMove
  | .init cmd ctl => [.writeArg0 (BitVec.setWidth 64 (ctl ++ cmd))]
  | .seekAbs pos => [.writeArg0 pos]
  | .seekRel delta => [.writeArg0 (BitVec.ofInt 64 delta)]
  | .seekEnd delta => [.writeArg0 (BitVec.ofInt 64 delta)]
  | .read buf len => [.writeArg0 buf, .writeArg1 len]
  | .write buf len => [.writeArg0 buf, .writeArg1 len]
  | .flush => []
  | .rsc len => [.writeArg0 len]

/-- The moves a written request stands for (R96): the operands, the word, the wait for BUSY=0. -/
def writtenMoves (w : WrittenRequest) : List CallerMove :=
  operandMoves w ++ [.writeReq (encode (writtenInstr w)), .awaitDone]

/-- An instruction byte is put where the next step takes it up (log entry 13): a device command by standing the
sequencer at its point, any other word as the caller's write to REQ. -/
def placeWord (b : Byte) (s : State) : State :=
  match decodeCommand b with
  | .ok i =>
    match commandPoint i with
    | some pt => placeAt pt s
    | none => placeRequest b s
  | .error _ => placeRequest b s

end Sys2Proof.Machine
end

