-- ==== Sys2Proof/Machine/Step.lean ====
section
/-! DEFINITION. One step of the machine, and where an instruction word is put for the next step. -/

namespace Sys2Proof.Machine

/-- One step (R40). -/
def step (s : State) : Host.Outcome State Fault Refusal := turn s

/-- The state whose very next step runs the instruction with the bits `w` (every instruction is one byte). -/
def State.withFetchWord (s : State) (_nbits w : Nat) : State := placeWord (BitVec.ofNat 8 w) s

end Sys2Proof.Machine
end

