-- ==== Sys2Proof/Safety.lean ====
section
/-! DEFINITION. The terms of the claims: the legal states of the unit (spec/10_state.md R25, R30-R35, spec/43_alignment.md
R167), what a lawful port transaction is (spec/20_memory.md R62, spec/30_encoding.md R89-R94), and how a run ends
(spec/70_reset_and_hazards.md R292). -/

namespace Sys2Proof.Machine

/-- A request is running: SEQ is `RUN(...)` (R35). -/
def Seq.running (q : Seq) : Bool :=
  match q with
  | .run _ => true
  | _ => false

/-- USTAT.INIT against SEQ (R35): no handle before INIT completes, one from then on; FAULTED allows either. -/
def initFlagOk (q : Seq) (b : Bool) : Prop :=
  match q with
  | .uninit => b = false
  | .run .initStatus => b = false
  | .run .initControl => b = false
  | .run _ => b = true
  | .idle => b = true
  | .faulted => True

/-- ERR against FAULT (R25). -/
def errOk (fault : Bool) (e : Byte) : Prop :=
  if fault then ∃ c : FatalCode, e = c.code else ∃ r : ResultCode, e = r.code

/-- The legal values of USTAT (R24, R25, R35). -/
structure State.StatusOk (s : State) : Prop where
  reserved : ustatReserved s.ustat = 0#5
  busy : s.busy = s.seq.running
  fault : s.faultFlag = decide (s.seq = .faulted)
  init : initFlagOk s.seq s.inited
  err : errOk s.faultFlag s.err

/-- The transfer registers of a running READ or WRITE against the cursor (R30, R256). -/
structure State.TransferOk (s : State) : Prop where
  nonempty : 0 < s.tL.toNat
  endsInRange : s.pos.toNat + s.tL.toNat ≤ 2 ^ 64 - 1
  bufferInRange : s.tBuf.toNat + s.tL.toNat ≤ 2 ^ 64
  sectors : s.tSect.toNat = requiredSectors s.pos.toNat s.tL.toNat
  sectorsMax : s.tSect.toNat ≤ 255
  off : s.tOff.toNat = s.pos.toNat % 512
  lba : s.tLba.toNat = s.pos.toNat / 512
  endPos : s.tEnd.toNat = s.pos.toNat + s.tL.toNat

/-- The loop variables at a point of a leg (R31, R201, R204, R224); at the two loops of `waitReady`: log entry 6. -/
def loopsOk (l : Leg) (p : Stage) (s : State) : Prop :=
  match p with
  | .wrBsy => s.loopW.toNat = 0 ∧ s.loopS.toNat < (s.legCount l).toNat
  | .wrDrq => s.loopW.toNat = 0 ∧ s.loopS.toNat < (s.legCount l).toNat
  | .xfer => s.loopW.toNat < 256 ∧ s.loopS.toNat < (s.legCount l).toNat
  | _ => True

/-- Elements `0 .. n-1` of a snapshot hold values. -/
def Snapshot.filledTo (a : Snapshot) (n : Nat) : Prop := ∀ k, k < n → ∃ v, a[k]? = some (some v)

/-- The words of a snapshot read so far: those before `w` in its data phase (R204). -/
def wordsRead (p : Stage) (s : State) : Nat :=
  match p with
  | .xfer => s.loopW.toNat
  | _ => 0

/-- The snapshots and their flags at a point of WRITE (R33, R221, R222). -/
def snapsOk (l : Leg) (p : Stage) (s : State) : Prop :=
  match l with
  | .read => True
  | .snapStart =>
    s.tOff.toNat ≠ 0 ∧ s.haveStart = false ∧ s.haveEnd = false ∧ s.startSnap.filledTo (wordsRead p s)
  | .snapEnd =>
    s.tEnd.toNat % 512 ≠ 0 ∧ s.haveStart = decide (s.tOff.toNat ≠ 0) ∧ s.haveEnd = false ∧
      s.endSnap.filledTo (wordsRead p s)
  | .write =>
    s.haveStart = decide (s.tOff.toNat ≠ 0) ∧ s.haveEnd = decide (s.tEnd.toNat % 512 ≠ 0)

/-- The request a leg belongs to (R35: the `op` of `RUN(op, point)`). -/
def Leg.op : Leg → TransferOp
  | .read => .read
  | .snapStart => .write
  | .snapEnd => .write
  | .write => .write

/-- What holds at the point of the running request. -/
def pointOk (q : Seq) (s : State) : Prop :=
  match q with
  | .run (.leg l p) => s.tOp = l.op ∧ s.TransferOk ∧ loopsOk l p s ∧ snapsOk l p s
  | .run .flBsy => s.tOp = .write ∧ s.TransferOk ∧ snapsOk .write .cmd s
  | .run .flCmd => s.tOp = .write ∧ s.TransferOk ∧ snapsOk .write .cmd s
  | _ => True

/-- The place of a data phase of the reference device (R75). -/
def phaseOk (p : DevPhase) : Prop :=
  match p with
  | .idle => True
  | .pioIn _ left w => 1 ≤ left ∧ left ≤ 256 ∧ w < 256
  | .pioOut _ left w => 1 ≤ left ∧ left ≤ 256 ∧ w < 256

/-- The reference device's disk is a disk and its phase a phase (R75). -/
def deviceOk (d : Device) : Prop :=
  match d with
  | .present r => r.disk.wf = true ∧ r.disk.below (Config.diskSectors * 512) = true ∧ phaseOk r.phase
  | _ => True

/-- The legal states: those the rules allow the machine to be in. -/
structure State.Inv (s : State) : Prop where
  memWf : s.mem.wf = true
  memBelow : s.mem.below Config.memBytes = true
  device : deviceOk s.device
  base : s.cmdBase.toNat ≤ 0xFFF8
  status : s.StatusOk
  startFull : s.haveStart = true → s.startSnap.filledTo 256
  endFull : s.haveEnd = true → s.endSnap.filledTo 256
  point : pointOk s.seq s
  snapshotFault : s.snapshotFault = false

/-- A port transaction the table of R62 allows, with a value the encodings allow: drive-select bits 7:4 are 1111 (R89),
a sector count is not 0 (R90), a command byte is one of R92, the device-control byte is 0 (R94). -/
def PortTx.lawful (t : PortTx) : Bool :=
  match t with
  | .in8 p _ _ => p == .statCmd
  | .out8 .secCnt _ v => v != 0#8
  | .out8 .lba0 _ _ => true
  | .out8 .lba1 _ _ => true
  | .out8 .lba2 _ _ => true
  | .out8 .drvSel _ v => v.extractLsb' 4 4 == 0xF#4
  | .out8 .statCmd _ v => v == 0x20#8 || v == 0x30#8 || v == 0xE7#8
  | .out8 .ctl _ v => v == 0#8
  | .out8 .data _ _ => false
  | .out8 .errFeat _ _ => false
  | .in16 _ _ => true
  | .out16 _ _ => true

/-- The address a transaction went to (R98). -/
def PortTx.addr : PortTx → Word16
  | .in8 _ a _ => a
  | .out8 _ a _ => a
  | .in16 a _ => a
  | .out16 a _ => a

/-- The port a transaction went to; the 16-bit ones go to `P_DATA` (R115, R116). -/
def PortTx.port : PortTx → PortName
  | .in8 p _ _ => p
  | .out8 p _ _ => p
  | .in16 _ _ => .data
  | .out16 _ _ => .data

/-- The move is the platform's hardware reset next. -/
def State.resetNext (s : State) : Bool :=
  match s.callerQueue with
  | .hardReset :: _ => true
  | _ => false

/-- The move next is the caller's access to caller memory at an address. -/
def State.memMoveNext (s : State) : Option Nat :=
  match s.callerQueue with
  | .writeMem a _ :: _ => some a.toNat
  | .readMem a :: _ => some a.toNat
  | _ => none

/-- The hidden and visible unit registers that only requests, data phases and reset write (R20): everything of the unit
but ARG0 and ARG1. -/
def State.sameUnit (s t : State) : Prop :=
  t.cmdBase = s.cmdBase ∧ t.ctlBase = s.ctlBase ∧ t.pos = s.pos ∧ t.ustat = s.ustat ∧ t.req = s.req ∧
    t.result = s.result ∧ t.tOp = s.tOp ∧ t.tBuf = s.tBuf ∧ t.tL = s.tL ∧ t.tOff = s.tOff ∧ t.tLba = s.tLba ∧
    t.tSect = s.tSect ∧ t.tEnd = s.tEnd ∧ t.loopS = s.loopS ∧ t.loopW = s.loopW ∧ t.startSnap = s.startSnap ∧
    t.endSnap = s.endSnap ∧ t.haveStart = s.haveStart ∧ t.haveEnd = s.haveEnd ∧
    t.snapshotFault = s.snapshotFault ∧ t.seq = s.seq

/-- No handle yet: SEQ is UNINIT, USTAT legal (R281). -/
structure State.Fresh (s : State) : Prop where
  seq : s.seq = .uninit
  status : s.StatusOk

/-- A handle and no request: SEQ is IDLE, USTAT legal (R35). -/
structure State.Ready (s : State) : Prop where
  seq : s.seq = .idle
  status : s.StatusOk

/-- CMD_BASE and CTL_BASE are as before. -/
def State.sameBases (s t : State) : Prop := t.cmdBase = s.cmdBase ∧ t.ctlBase = s.ctlBase

/-- ARG0 and ARG1 are as before. -/
def State.sameOperands (s t : State) : Prop := t.arg0 = s.arg0 ∧ t.arg1 = s.arg1

/-- The latched registers of R30 are as before. -/
def State.sameTransfer (s t : State) : Prop :=
  t.tOp = s.tOp ∧ t.tBuf = s.tBuf ∧ t.tL = s.tL ∧ t.tOff = s.tOff ∧ t.tLba = s.tLba ∧ t.tSect = s.tSect ∧
    t.tEnd = s.tEnd

/-- The loop variables of R31 are as before. -/
def State.sameLoops (s t : State) : Prop := t.loopS = s.loopS ∧ t.loopW = s.loopW

/-- The snapshots, their flags (R32, R33) and the mark of UNWRITTEN_SNAPSHOT (R262) are as before. -/
def State.sameSnaps (s t : State) : Prop :=
  t.startSnap = s.startSnap ∧ t.endSnap = s.endSnap ∧ t.haveStart = s.haveStart ∧ t.haveEnd = s.haveEnd ∧
    t.snapshotFault = s.snapshotFault

/-- The caller's side is as before: its queue and what it last read. -/
def State.sameCaller (s t : State) : Prop := t.callerQueue = s.callerQueue ∧ t.callerIn = s.callerIn

/-- Every byte of caller memory reads as before. -/
def State.sameBytes (s t : State) : Prop := ∀ a : Nat, t.mem.get a = s.mem.get a

/-- No port transaction: the trace and the device are as before. -/
def State.noTransaction (s t : State) : Prop := t.trace = s.trace ∧ t.device = s.device

/-- Exactly one port transaction, `x`, comes after those of `s`. -/
def State.oneTransaction (x : PortTx) (s t : State) : Prop := t.trace = x :: s.trace

/-- Everything but POS, USTAT, REQ, RESULT and SEQ is as before. -/
def State.quiet (s t : State) : Prop :=
  s.sameBases t ∧ s.sameOperands t ∧ s.sameTransfer t ∧ s.sameLoops t ∧ s.sameSnaps t ∧ s.sameCaller t ∧
    s.sameBytes t ∧ s.noTransaction t

/-- POS, USTAT, REQ and RESULT are as before. -/
def State.sameStatus (s t : State) : Prop :=
  t.pos = s.pos ∧ t.ustat = s.ustat ∧ t.req = s.req ∧ t.result = s.result

/-- `t` is `s` after `raise Fault(c)` (R255) and nothing else: "the state is exactly that before the request, plus the
USTAT fields" (R260) and SEQ. -/
def State.faultedWith (c : FatalCode) (s t : State) : Prop :=
  t.ustat = ustatOf false s.inited true c.code ∧ t.seq = .faulted ∧ t.pos = s.pos ∧ t.req = s.req ∧
    t.result = s.result ∧ s.quiet t

/-- The merge of WRITE's word reads a snapshot element that holds no value: START_SNAP's for a word before the buffer or
across its start, END_SNAP's for one past it or across its end (R225, R33). -/
def State.unwrittenElement (s : State) : Prop :=
  (s.wordCls = .straddleLow ∨ s.wordCls = .before) ∧ snapElem s.haveStart s.startSnap s.loopW.toNat = none ∨
    (s.wordCls = .straddleHigh ∨ s.wordCls = .after) ∧ snapElem s.haveEnd s.endSnap s.loopW.toNat = none

/-- A request has completed with OK, result `r` and cursor `p` (R257). -/
def State.completedWith (p r : Word64) (t : State) : Prop :=
  t.ustat = ustatOf false true false 0x00#8 ∧ t.seq = .idle ∧ t.pos = p ∧ t.result = r

/-- The request that a point belongs to: the `op` of `RUN(op, point)` (R35). -/
def Point.request : Point → Instr
  | .initStatus => .init
  | .initControl => .init
  | .leg .read _ => .read
  | .leg .snapStart _ => .write
  | .leg .snapEnd _ => .write
  | .leg .write _ => .write
  | .flBsy => .write
  | .flCmd => .write

/-- `q` comes after `p` when a status read shows BSY=0: the `waitBusy` points (R180, R181, R185). -/
def busyWaitAt (p q : Point) : Prop :=
  (∃ l, p = .leg l .bw ∧ q = .leg l .sel) ∨ (∃ l, p = .leg l .wrBsy ∧ q = .leg l .wrDrq) ∨ (p = .flBsy ∧ q = .flCmd)

/-- READ and WRITE of the operands in ARG0 and ARG1 pass checks 7 to 9 of R256 at the cursor. -/
structure State.TransferFits (s : State) : Prop where
  endsInRange : s.pos.toNat + s.arg1.toNat ≤ 2 ^ 64 - 1
  bufferInRange : s.arg0.toNat + s.arg1.toNat ≤ 2 ^ 64
  sectorsMax : requiredSectors s.pos.toNat s.arg1.toNat ≤ 255

/-- The byte of a data word that goes to, or comes from, buffer index `i` when the word's index is `idx`
(R202, R225): the low byte at `idx`, the high byte at `idx + 1`. -/
def byteFor (idx : Int) (i : Nat) (v : Word16) : Byte := if (i : Int) = idx then v.extractLsb' 0 8 else v.extractLsb' 8 8

/-- `n` steps, stopping at the first fault or refusal. -/
def steps (n : Nat) (s : State) : Result :=
  match n with
  | 0 => .next s
  | k + 1 =>
    match step s with
    | .next t => steps k t
    | .fault f => .fault f
    | .refused r => .refused r

/-- A run has ended well: BUSY=0 and FAULT=0 (R292). -/
def State.endedWell (s : State) : Bool := !s.busy && !s.faultFlag

end Sys2Proof.Machine
end

