-- ==== Sys2Proof/Certificates/Slice0/Obligations.lean ====
section
/-! DEFINITION. The statements for the provers, in the order of the spec's files: the encoding and the step, each
request and device command, the sequencer, the data words, and the rules about the whole machine. -/

open Sys2Proof Sys2Proof.Machine

/-! ### Encoding -/

/-- R82: the opcode map, every word written out in bits, and no other word a request. -/
def Obligations.RequestWordMap : Prop :=
  decodeRequest 0b00000001#8 = .ok .init ∧ decodeRequest 0b00000010#8 = .ok .seekAbs ∧
    decodeRequest 0b00000011#8 = .ok .seekRel ∧ decodeRequest 0b00000100#8 = .ok .seekEnd ∧
    decodeRequest 0b00000101#8 = .ok .read ∧ decodeRequest 0b00000110#8 = .ok .write ∧
    decodeRequest 0b00000111#8 = .ok .flush ∧ decodeRequest 0b00001000#8 = .ok .rsc ∧
    ∀ q : Byte, q.toNat = 0 ∨ 9 ≤ q.toNat → ∃ e, decodeRequest q = .error e

/-- R92: the three device command bytes, and no other byte a command. -/
def Obligations.CommandByteMap : Prop :=
  decodeCommand 0b00100000#8 = .ok .readSectors ∧ decodeCommand 0b00110000#8 = .ok .writeSectors ∧
    decodeCommand 0b11100111#8 = .ok .cacheFlush ∧
    ∀ c : Byte, c ≠ 0x20#8 → c ≠ 0x30#8 → c ≠ 0xE7#8 → ∃ e, decodeCommand c = .error e

/-- Decoding on a surface and encoding agree both ways (R82, R92). -/
def Obligations.EncodeDecodeAgree : Prop :=
  (∀ f i, Instr.wellFormedOn f i = true → decodeOn f (encode i) = .ok i) ∧
    ∀ f b i, decodeOn f b = .ok i → encode i = b ∧ Instr.wellFormedOn f i = true

/-! ### A step -/

/-- A step is the caller's next move, or the unit's own when the caller yields or awaits BUSY=0. The order is the
model's choice: log entries 1 and 25. -/
def Obligations.CallerOrUnitMoves : Prop :=
  ∀ s : State,
    (s.callerQueue = [] → step s = unitStep s) ∧
    ∀ rest,
      (∀ q, s.callerQueue = .writeReq q :: rest → step s = writeReq q (setQueue rest s)) ∧
      (s.callerQueue = .yield :: rest → step s = unitStep (setQueue rest s)) ∧
      (s.callerQueue = .awaitDone :: rest → s.busy = true → step s = unitStep s) ∧
      (s.callerQueue = .awaitDone :: rest → s.busy = false → step s = .next (setQueue rest s))

/-- A step whose move is a write to REQ of a word that decodes to `i` is `exec i` (R39, R82). -/
def Obligations.StepRunsWrittenRequest : Prop :=
  ∀ (s : State) (q : Byte) (i : Instr) rest, s.callerQueue = .writeReq q :: rest → decodeRequest q = .ok i →
    step s = exec i (setQueue rest s)

/-- The unit's step at a command point is `exec` of the device command due there (R184, R185, R188). -/
def Obligations.StepRunsDueCommand : Prop :=
  ∀ (s : State) (i : Instr), dueCommand s.seq = some i →
    (s.callerQueue = [] → step s = exec i s) ∧
    (∀ rest, s.callerQueue = .yield :: rest → step s = exec i (setQueue rest s)) ∧
    (∀ rest, s.callerQueue = .awaitDone :: rest → s.busy = true → step s = exec i s)

/-- The word that `withFetchWord` places is the one the very next step runs (log entry 13). -/
def Obligations.PlacedWordRunsNext : Prop :=
  ∀ (s : State) (w : Nat) (i : Instr), w < 256 →
    (decodeRequest (BitVec.ofNat 8 w) = .ok i → step (s.withFetchWord 8 w) = exec i s) ∧
    (decodeCommand (BitVec.ofNat 8 w) = .ok i → ∃ pt, dueCommand (.run pt) = some i ∧
      step (s.withFetchWord 8 w) = exec i { s with seq := .run pt, ustat := ustatOf true true false s.err } ∧
      ∃ t, step (s.withFetchWord 8 w) = .next t)

/-- R96, R84: a written request stands for the writes of its operands, then of its word, then the wait for BUSY=0; after
the operand writes its word is the next move and ARG0 and ARG1 hold the operands. -/
def Obligations.WrittenRequestPlacesOperands : Prop :=
  ∀ (s : State) (w : WrittenRequest) rest, s.callerQueue = writtenMoves w ++ rest →
    ∃ n t, steps n s = .next t ∧ decodeRequest (encode (writtenInstr w)) = .ok (writtenInstr w) ∧
      t.callerQueue = .writeReq (encode (writtenInstr w)) :: .awaitDone :: rest ∧ s.sameUnit t ∧ s.noTransaction t ∧
      s.sameBytes t ∧
      match w with
      | .init cmd ctl => n = 1 ∧ t.arg0.extractLsb' 0 16 = cmd ∧ t.arg0.extractLsb' 16 16 = ctl ∧ t.arg1 = s.arg1
      | .seekAbs pos => n = 1 ∧ t.arg0 = pos ∧ t.arg1 = s.arg1
      | .seekRel delta => n = 1 ∧ t.arg1 = s.arg1 ∧ (-2 ^ 63 ≤ delta → delta < 2 ^ 63 → t.arg0.toInt = delta)
      | .seekEnd delta => n = 1 ∧ t.arg1 = s.arg1 ∧ (-2 ^ 63 ≤ delta → delta < 2 ^ 63 → t.arg0.toInt = delta)
      | .read buf len => n = 2 ∧ t.arg0 = buf ∧ t.arg1 = len
      | .write buf len => n = 2 ∧ t.arg0 = buf ∧ t.arg1 = len
      | .flush => n = 0 ∧ t.arg0 = s.arg0 ∧ t.arg1 = s.arg1
      | .rsc len => n = 1 ∧ t.arg0 = len ∧ t.arg1 = s.arg1

/-! ### Codes -/

/-- The codes of R88. -/
def Obligations.ErrCodeTable : Prop :=
  ResultCode.ok.code = 0x00#8 ∧ ResultCode.seekOutOfRange.code = 0x01#8 ∧
    ResultCode.seekUnsupported.code = 0x02#8 ∧ FatalCode.deviceAbsent.code = 0x80#8 ∧
    FatalCode.notInitialised.code = 0x81#8 ∧ FatalCode.alreadyInitialised.code = 0x82#8 ∧
    FatalCode.illegalRequest.code = 0x83#8 ∧ FatalCode.requestWhileBusy.code = 0x84#8 ∧
    FatalCode.positionOverflow.code = 0x85#8 ∧ FatalCode.sectorCountRange.code = 0x86#8 ∧
    FatalCode.baseRange.code = 0x87#8 ∧ FatalCode.bufferRange.code = 0x88#8

/-! ### Acceptance -/

/-- R83: a word outside the opcode map raises ILLEGAL_REQUEST, and the decoder is total. -/
def Obligations.IllegalWordFaults : Prop :=
  (∀ q : Byte, (∃ i, decodeRequest q = .ok i ∧ i.format = .req8) ∨ ∃ e, decodeRequest q = .error e) ∧
    ∀ (s : State) (q : Byte), q.toNat = 0 ∨ 9 ≤ q.toNat → s.seq ≠ .faulted → s.busy = false →
      ∃ t, writeReq q s = .next t ∧ s.faultedWith .illegalRequest t

/-- R256: the nine checks in their order, each with the fault it raises, from every state. -/
def Obligations.AcceptanceCheckOrder : Prop :=
  ∀ (s : State) (q : Byte),
    (s.seq = .faulted → writeReq q s = .next s) ∧
    (s.seq ≠ .faulted → s.busy = true → ∃ t, writeReq q s = .next t ∧ s.faultedWith .requestWhileBusy t) ∧
    (s.seq ≠ .faulted → s.busy = false →
      (∀ e, decodeRequest q = .error e → ∃ t, writeReq q s = .next t ∧ s.faultedWith .illegalRequest t) ∧
      (decodeRequest q = .ok .init → s.inited = true →
        ∃ t, writeReq q s = .next t ∧ s.faultedWith .alreadyInitialised t) ∧
      (∀ i, decodeRequest q = .ok i → i ≠ .init → s.inited = false →
        ∃ t, writeReq q s = .next t ∧ s.faultedWith .notInitialised t) ∧
      (decodeRequest q = .ok .init → s.inited = false → 0xFFF8 < (s.arg0.extractLsb' 0 16).toNat →
        ∃ t, writeReq q s = .next t ∧ s.faultedWith .baseRange t) ∧
      (∀ i, decodeRequest q = .ok i → i = .read ∨ i = .write → s.inited = true →
        (2 ^ 64 - 1 < s.pos.toNat + s.arg1.toNat →
          ∃ t, writeReq q s = .next t ∧ s.faultedWith .positionOverflow t) ∧
        (s.pos.toNat + s.arg1.toNat ≤ 2 ^ 64 - 1 → 2 ^ 64 < s.arg0.toNat + s.arg1.toNat →
          ∃ t, writeReq q s = .next t ∧ s.faultedWith .bufferRange t) ∧
        (s.pos.toNat + s.arg1.toNat ≤ 2 ^ 64 - 1 → s.arg0.toNat + s.arg1.toNat ≤ 2 ^ 64 →
          255 < requiredSectors s.pos.toNat s.arg1.toNat →
          ∃ t, writeReq q s = .next t ∧ s.faultedWith .sectorCountRange t)))

/-- R30: READ and WRITE latch the transfer registers when they are accepted, whatever their length. -/
def Obligations.TransferRegistersLatched : Prop :=
  ∀ (s : State) (i : Instr) (op : TransferOp), s.Ready → s.TransferFits →
    (i = .read ∧ op = .read) ∨ (i = .write ∧ op = .write) →
    ∃ t, exec i s = .next t ∧ t.tOp = op ∧ t.tBuf = s.arg0 ∧ t.tL = s.arg1 ∧ t.tOff.toNat = s.pos.toNat % 512 ∧
      t.tLba.toNat = s.pos.toNat / 512 ∧ t.tSect.toNat = requiredSectors s.pos.toNat s.arg1.toNat ∧
      t.tEnd.toNat = s.pos.toNat + s.arg1.toNat

/-! ### INIT -/

/-- INIT's acceptance: the bases of R130 and R84 are written and the status read is pending; nothing else changes. That
the bases change in this step, and that ERR keeps its code, is the model's reading: log entries 8 and 14. -/
def Obligations.InitAccepted : Prop :=
  ∀ s : State, s.Fresh → (s.arg0.extractLsb' 0 16).toNat ≤ 0xFFF8 →
    ∃ t, exec .init s = .next t ∧ t.cmdBase = s.arg0.extractLsb' 0 16 ∧ t.ctlBase = s.arg0.extractLsb' 16 16 ∧
      t.seq = .run .initStatus ∧ t.ustat = ustatOf true false false s.err ∧ t.pos = s.pos ∧ t.result = s.result ∧
      s.sameOperands t ∧ s.sameTransfer t ∧ s.sameLoops t ∧ s.sameSnaps t ∧ s.sameCaller t ∧ s.sameBytes t ∧
      s.noTransaction t

/-- R282: the drive-handle state after a successful INIT, reached in three steps from any device whose status read is
not the sentinel. -/
def Obligations.InitCreatesHandle : Prop :=
  ∀ s : State, s.Fresh → s.callerQueue = [.writeReq 0x01#8] → (s.arg0.extractLsb' 0 16).toNat ≤ 0xFFF8 →
    (s.device.in8 .statCmd).1 ≠ 0xFF#8 →
    ∃ t, steps 3 s = .next t ∧ t.cmdBase = s.arg0.extractLsb' 0 16 ∧ t.ctlBase = s.arg0.extractLsb' 16 16 ∧
      t.pos = 0#64 ∧ t.ustat = 0x0002#16 ∧ t.result = 0#64 ∧ t.seq = .idle ∧
      t.trace = .out8 .ctl (s.arg0.extractLsb' 16 16) 0x00#8 ::
        .in8 .statCmd (s.arg0.extractLsb' 0 16 + 7#16) (s.device.in8 .statCmd).1 :: s.trace ∧
      t.device = (s.device.in8 .statCmd).2.out8 .ctl 0x00#8 ∧ t.callerQueue = [] ∧
      s.sameOperands t ∧ s.sameTransfer t ∧ s.sameLoops t ∧ s.sameSnaps t ∧ s.sameBytes t

/-- R130, R95: a status read of `0xFF` faults INIT with DEVICE_ABSENT; the control register is not written, the bases
are the new ones (R260). -/
def Obligations.InitFindsNoDevice : Prop :=
  ∀ s : State, s.Fresh → s.callerQueue = [.writeReq 0x01#8] → (s.arg0.extractLsb' 0 16).toNat ≤ 0xFFF8 →
    (s.device.in8 .statCmd).1 = 0xFF#8 →
    ∃ t, steps 2 s = .next t ∧ t.seq = .faulted ∧ t.ustat = 0x8004#16 ∧ t.cmdBase = s.arg0.extractLsb' 0 16 ∧
      t.ctlBase = s.arg0.extractLsb' 16 16 ∧ t.pos = s.pos ∧ t.result = s.result ∧
      s.oneTransaction (.in8 .statCmd (s.arg0.extractLsb' 0 16 + 7#16) 0xFF#8) t ∧
      s.sameOperands t ∧ s.sameTransfer t ∧ s.sameSnaps t ∧ s.sameBytes t

/-! ### The seeks -/

/-- R140: SEEK.ABS. -/
def Obligations.SeekAbsMovesCursor : Prop :=
  ∀ s : State,
    (s.Ready → ∃ t, exec .seekAbs s = .next t ∧ t.completedWith s.arg0 s.arg0 ∧ s.quiet t) ∧
    (s.Fresh → ∃ t, exec .seekAbs s = .next t ∧ s.faultedWith .notInitialised t)

/-- R141: SEEK.REL, its three cases by the exact candidate. -/
def Obligations.SeekRelMovesOrFails : Prop :=
  ∀ s : State,
    (s.Ready →
      (0 ≤ (s.pos.toNat : Int) + s.arg0.toInt → (s.pos.toNat : Int) + s.arg0.toInt ≤ 2 ^ 64 - 1 →
        ∃ t p, exec .seekRel s = .next t ∧ (p.toNat : Int) = (s.pos.toNat : Int) + s.arg0.toInt ∧
          t.completedWith p p ∧ s.quiet t) ∧
      ((s.pos.toNat : Int) + s.arg0.toInt < 0 →
        ∃ t, exec .seekRel s = .next t ∧ t.ustat = ustatOf false true false 0x01#8 ∧ t.seq = .idle ∧
          t.pos = s.pos ∧ t.result = s.result ∧ s.quiet t) ∧
      (2 ^ 64 - 1 < (s.pos.toNat : Int) + s.arg0.toInt →
        ∃ t, exec .seekRel s = .next t ∧ s.faultedWith .positionOverflow t)) ∧
    (s.Fresh → ∃ t, exec .seekRel s = .next t ∧ s.faultedWith .notInitialised t)

/-- R142: SEEK.END always fails. -/
def Obligations.SeekEndAlwaysFails : Prop :=
  ∀ s : State,
    (s.Ready → ∃ t, exec .seekEnd s = .next t ∧ t.ustat = ustatOf false true false 0x02#8 ∧ t.seq = .idle ∧
      t.pos = s.pos ∧ t.result = s.result ∧ s.quiet t) ∧
    (s.Fresh → ∃ t, exec .seekEnd s = .next t ∧ s.faultedWith .notInitialised t)

/-! ### FLUSH and RSC -/

/-- R186: FLUSH completes with 0 and does nothing else. -/
def Obligations.FlushDoesNothing : Prop :=
  ∀ s : State,
    (s.Ready → ∃ t, exec .flush s = .next t ∧ t.completedWith s.pos 0#64 ∧ s.quiet t) ∧
    (s.Fresh → ∃ t, exec .flush s = .next t ∧ s.faultedWith .notInitialised t)

/-- R164: RSC returns the required sector count of ARG0 at the cursor, not truncated and not range-checked. -/
def Obligations.RscReturnsCount : Prop :=
  ∀ s : State,
    (s.Ready → ∃ t n, exec .rsc s = .next t ∧ n.toNat = requiredSectors s.pos.toNat s.arg0.toNat ∧
      t.completedWith s.pos n ∧ s.quiet t) ∧
    (s.Fresh → ∃ t, exec .rsc s = .next t ∧ s.faultedWith .notInitialised t)

/-- R163: the closed forms of RSC, and that it is the least count that covers the byte range. -/
def Obligations.SectorCountClosedForms : Prop :=
  ∀ p l : Nat,
    requiredSectors p 0 = 0 ∧
    (0 < l →
      requiredSectors p l = (p % 512 + l + 511) / 512 ∧
      requiredSectors p l = (p + l - 1) / 512 - p / 512 + 1 ∧
      ∀ n, p + l ≤ 512 * (p / 512 + n) ↔ requiredSectors p l ≤ n)

/-! ### READ and WRITE accepted -/

/-- READ with a length above 0 goes to the busy-wait before programming (R200); nothing else visible changes. ERR keeps
its code while BUSY=1: log entry 14. -/
def Obligations.ReadAccepted : Prop :=
  ∀ s : State, s.Ready → s.TransferFits → 0 < s.arg1.toNat →
    ∃ t, exec .read s = .next t ∧ t.seq = .run (.leg .read .bw) ∧ t.ustat = ustatOf true true false s.err ∧
      t.pos = s.pos ∧ t.result = s.result ∧ s.sameBases t ∧ s.sameOperands t ∧ s.sameLoops t ∧ s.sameSnaps t ∧
      s.sameCaller t ∧ s.sameBytes t ∧ s.noTransaction t

/-- WRITE with a length above 0 clears both flags and goes to the start snapshot, the end snapshot or its own command
(R33, R220, R221, R222). ERR keeps its code while BUSY=1: log entry 14. -/
def Obligations.WriteAccepted : Prop :=
  ∀ s : State, s.Ready → s.TransferFits → 0 < s.arg1.toNat →
    ∃ t, exec .write s = .next t ∧
      t.seq = .run (.leg (if s.pos.toNat % 512 ≠ 0 then .snapStart
        else if (s.pos.toNat + s.arg1.toNat) % 512 ≠ 0 then .snapEnd else .write) .bw) ∧
      t.ustat = ustatOf true true false s.err ∧ t.haveStart = false ∧ t.haveEnd = false ∧
      t.startSnap = s.startSnap ∧ t.endSnap = s.endSnap ∧ t.snapshotFault = s.snapshotFault ∧ t.pos = s.pos ∧ t.result = s.result ∧ s.sameBases t ∧
      s.sameOperands t ∧ s.sameLoops t ∧ s.sameCaller t ∧ s.sameBytes t ∧ s.noTransaction t

/-- R287: READ and WRITE of length 0 complete at once with 0, without a port transaction, the cursor unmoved. -/
def Obligations.ZeroLengthTransfers : Prop :=
  ∀ (s : State) (i : Instr), s.Ready → s.TransferFits → s.arg1 = 0#64 → i = .read ∨ i = .write →
    ∃ t, exec i s = .next t ∧ t.completedWith s.pos 0#64 ∧ s.sameBases t ∧ s.sameOperands t ∧ s.sameLoops t ∧
      t.snapshotFault = s.snapshotFault ∧ s.sameCaller t ∧ s.sameBytes t ∧ s.noTransaction t

/-! ### The device commands -/

/-- READ_SECTORS at the CMD point of READ or of a snapshot read: `0x20` goes to the command port (R184), and the first
sector's `waitReady` comes next (R201, R204). The loop variables: log entry 6. -/
def Obligations.ReadSectorsIssued : Prop :=
  ∀ (s : State) (l : Leg), s.seq = .run (.leg l .cmd) → l ≠ .write →
    ∃ t, exec .readSectors s = .next t ∧ s.oneTransaction (.out8 .statCmd (s.cmdBase + 7#16) 0x20#8) t ∧
      t.device = s.device.out8 .statCmd 0x20#8 ∧ t.seq = .run (.leg l .wrBsy) ∧ t.loopS = 0#16 ∧ t.loopW = 0#9 ∧
      s.sameStatus t ∧ s.sameBases t ∧ s.sameOperands t ∧ s.sameTransfer t ∧ s.sameSnaps t ∧ s.sameCaller t ∧
      s.sameBytes t

/-- WRITE_SECTORS at the CMD point of WRITE: `0x30` goes to the command port (R184). The loop variables: log entry 6. -/
def Obligations.WriteSectorsIssued : Prop :=
  ∀ s : State, s.seq = .run (.leg .write .cmd) →
    ∃ t, exec .writeSectors s = .next t ∧ s.oneTransaction (.out8 .statCmd (s.cmdBase + 7#16) 0x30#8) t ∧
      t.device = s.device.out8 .statCmd 0x30#8 ∧ t.seq = .run (.leg .write .wrBsy) ∧ t.loopS = 0#16 ∧
      t.loopW = 0#9 ∧ s.sameStatus t ∧ s.sameBases t ∧ s.sameOperands t ∧ s.sameTransfer t ∧ s.sameSnaps t ∧
      s.sameCaller t ∧ s.sameBytes t

/-- CACHE_FLUSH at FL_CMD: `0xE7` goes to the command port (R185), and in the same step the WRITE completes
(R220, R226). That the hidden registers keep their contents past the request is the model's choice: log entry 5. -/
def Obligations.CacheFlushCompletesWrite : Prop :=
  ∀ s : State, s.seq = .run .flCmd →
    ∃ t, exec .cacheFlush s = .next t ∧ s.oneTransaction (.out8 .statCmd (s.cmdBase + 7#16) 0xE7#8) t ∧
      t.device = s.device.out8 .statCmd 0xE7#8 ∧ t.seq = .idle ∧ t.pos = s.tEnd ∧ t.result = s.tL ∧
      t.ustat = ustatOf false s.inited s.faultFlag 0x00#8 ∧ t.req = s.req ∧ s.sameBases t ∧ s.sameOperands t ∧
      s.sameTransfer t ∧ s.sameLoops t ∧ s.sameSnaps t ∧ s.sameCaller t ∧ s.sameBytes t

/-- A device command where the sequencer has another or none to issue is refused by name: the model's choice, log
entry 12. -/
def Obligations.UndueCommandRefused : Prop :=
  ∀ (s : State) (i : Instr), i.format = .devcmd8 → dueCommand s.seq ≠ some i →
    exec i s = .refused .commandNotDue

/-! ### Polling and programming -/

/-- R180: one iteration of `waitBusy` at each of its points: one status read, and only bit 7 decides. -/
def Obligations.BusyWaitTestsBitSeven : Prop :=
  ∀ (s : State) (p q : Point), s.callerQueue = [] → s.seq = .run p → busyWaitAt p q →
    ∃ t, step s = .next t ∧
      s.oneTransaction (.in8 .statCmd (s.cmdBase + 7#16) (s.device.in8 .statCmd).1) t ∧
      t.device = (s.device.in8 .statCmd).2 ∧
      t.seq = .run (if (s.device.in8 .statCmd).1.getLsbD 7 = true then p else q) ∧
      s.sameStatus t ∧ s.sameBases t ∧ s.sameOperands t ∧ s.sameTransfer t ∧ s.sameLoops t ∧ s.sameSnaps t ∧
      s.sameCaller t ∧ s.sameBytes t

/-- R181: `waitReady` is a busy-wait, then a second loop of its own whose every iteration is one status read that only
bit 3 decides. -/
def Obligations.ReadyWaitTestsBitThree : Prop :=
  ∀ (s : State) (l : Leg), s.callerQueue = [] →
    (s.seq = .run (.leg l .wrBsy) → ∃ t, step s = .next t ∧
      t.seq = .run (.leg l (if (s.device.in8 .statCmd).1.getLsbD 7 = true then .wrBsy else .wrDrq))) ∧
    (s.seq = .run (.leg l .wrDrq) → ∃ t, step s = .next t ∧
      s.oneTransaction (.in8 .statCmd (s.cmdBase + 7#16) (s.device.in8 .statCmd).1) t ∧
      t.device = (s.device.in8 .statCmd).2 ∧
      t.seq = .run (.leg l (if (s.device.in8 .statCmd).1.getLsbD 3 = true then .xfer else .wrDrq)) ∧
      s.sameStatus t ∧ s.sameBases t ∧ s.sameOperands t ∧ s.sameTransfer t ∧ s.sameLoops t ∧ s.sameSnaps t ∧
      s.sameCaller t ∧ s.sameBytes t)

/-- R187, R261: on a floating bus a busy-wait never ends: after every number of steps the unit stands at the same point
and has made one more status read in each. -/
def Obligations.FloatingBusHangs : Prop :=
  ∀ (s : State) (p q : Point) (n : Nat), s.callerQueue = [] → s.seq = .run p → busyWaitAt p q →
    s.device = .absent →
    ∃ t, steps n s = .next t ∧ t.seq = .run p ∧
      t.trace = List.replicate n (.in8 .statCmd (s.cmdBase + 7#16) 0xFF#8) ++ s.trace ∧
      s.sameStatus t ∧ s.sameBytes t

/-- R182, R89, R91: `beginTransfer`: a status read with BSY=0, then the five writes in order, with the bytes of the leg's
sector and count (T_LBA and T_SECT; for the snapshots T_LBA or `T_END div 512`, and 1). -/
def Obligations.ProgrammingSequence : Prop :=
  ∀ (s : State) (l : Leg) (lba n : Nat), s.callerQueue = [] → s.seq = .run (.leg l .bw) →
    (s.device.in8 .statCmd).1.getLsbD 7 = false →
    lba = (if l = .snapEnd then s.tEnd.toNat / 512 else s.tLba.toNat) →
    n = (if l = .snapStart ∨ l = .snapEnd then 1 else s.tSect.toNat) →
    ∃ t, steps 6 s = .next t ∧ t.seq = .run (.leg l .cmd) ∧
      t.trace =
        .out8 .lba2 (s.cmdBase + 5#16) (BitVec.ofNat 8 (lba / 2 ^ 16)) ::
        .out8 .lba1 (s.cmdBase + 4#16) (BitVec.ofNat 8 (lba / 2 ^ 8)) ::
        .out8 .lba0 (s.cmdBase + 3#16) (BitVec.ofNat 8 lba) ::
        .out8 .secCnt (s.cmdBase + 2#16) (BitVec.ofNat 8 n) ::
        .out8 .drvSel (s.cmdBase + 6#16) (BitVec.ofNat 8 (0xF0 + lba / 2 ^ 24 % 16)) ::
        .in8 .statCmd (s.cmdBase + 7#16) (s.device.in8 .statCmd).1 :: s.trace ∧
      s.sameStatus t ∧ s.sameBases t ∧ s.sameOperands t ∧ s.sameTransfer t ∧ s.sameSnaps t ∧ s.sameBytes t

/-! ### Ports -/

/-- R110: the nine port addresses, exact in every legal state. -/
def Obligations.PortAddressesExact : Prop :=
  ∀ s : State, s.Inv →
    (s.portAddr .data).toNat = s.cmdBase.toNat + 0 ∧ (s.portAddr .errFeat).toNat = s.cmdBase.toNat + 1 ∧
      (s.portAddr .secCnt).toNat = s.cmdBase.toNat + 2 ∧ (s.portAddr .lba0).toNat = s.cmdBase.toNat + 3 ∧
      (s.portAddr .lba1).toNat = s.cmdBase.toNat + 4 ∧ (s.portAddr .lba2).toNat = s.cmdBase.toNat + 5 ∧
      (s.portAddr .drvSel).toNat = s.cmdBase.toNat + 6 ∧ (s.portAddr .statCmd).toNat = s.cmdBase.toNat + 7 ∧
      (s.portAddr .ctl).toNat = s.ctlBase.toNat

/-- R111, R62, R40: a step makes at most one port transaction, none unless a request is running, and only one that the
table of R62 allows, at the address R110 gives its port, with a value the encodings allow. -/
def Obligations.OnlyLawfulTransactions : Prop :=
  ∀ s t : State, s.Inv → step s = .next t →
    t.trace = s.trace ∨
    ∃ x, t.trace = x :: s.trace ∧ s.busy = true ∧ x.lawful = true ∧ x.addr = s.portAddr x.port ∧
      (x.port = .ctl → s.seq = .run .initControl) ∧
      ((∃ a v, x = .in16 a v) → ∃ l, l ≠ .write ∧ s.seq = .run (.leg l .xfer)) ∧
      ((∃ a v, x = .out16 a v) → s.seq = .run (.leg .write .xfer))

/-! ### Data words -/

/-- R166: the word index and the five classes, by ranges that exclude each other. -/
def Obligations.WordClassTable : Prop :=
  (∀ s : State, s.wordIdx = ((s.loopS.toNat : Int) * 256 + s.loopW.toNat) * 2 - s.tOff.toNat) ∧
    ∀ (idx : Int) (l : Nat),
      (wordClass idx l = .straddleLow ↔ idx = -1) ∧ (wordClass idx l = .before ↔ idx < -1) ∧
        (wordClass idx l = .inside ↔ 0 ≤ idx ∧ idx + 1 < l) ∧
        (wordClass idx l = .straddleHigh ↔ 0 ≤ idx ∧ idx < l ∧ l ≤ idx + 1) ∧
        (wordClass idx l = .after ↔ 0 ≤ idx ∧ l ≤ idx)

/-- R167: where each class occurs, for a cursor `p` and a length `l` above 0. -/
def Obligations.WordClassesAtTheEnds : Prop :=
  ∀ p l : Nat, 0 < l →
    (∀ sec w, sec < requiredSectors p l → w < 256 →
      (wordClass (wordIndex sec w (p % 512)) l = .straddleLow ↔ p % 2 = 1 ∧ sec = 0 ∧ w = (p % 512 - 1) / 2) ∧
      (wordClass (wordIndex sec w (p % 512)) l = .before ↔ sec = 0 ∧ w < p % 512 / 2) ∧
      (wordClass (wordIndex sec w (p % 512)) l = .straddleHigh ↔
        (p + l) % 2 = 1 ∧ 256 * sec + w = (p % 512 + l - 1) / 2) ∧
      (wordClass (wordIndex sec w (p % 512)) l = .straddleHigh ∨ wordClass (wordIndex sec w (p % 512)) l = .after →
        sec = requiredSectors p l - 1 ∧ (p + l) % 512 ≠ 0)) ∧
    ((∃ sec w, sec < requiredSectors p l ∧ w < 256 ∧ wordClass (wordIndex sec w (p % 512)) l = .inside) ↔
      3 ≤ l ∨ (l = 2 ∧ p % 2 = 0)) ∧
    (∀ sec, sec < requiredSectors p l →
      (∃ w, w < 256 ∧ wordClass (wordIndex sec w (p % 512)) l ≠ .after) ∧
      (∃ w, w < 256 ∧ wordClass (wordIndex sec w (p % 512)) l ≠ .before)) ∧
    ((p + l) % 512 ≠ 0 → (p + l) / 512 = p / 512 + requiredSectors p l - 1)

/-- R168: how many bytes a class moves, and that over the words of a transfer every buffer index is moved exactly once
and in increasing order. -/
def Obligations.EveryByteMovedOnce : Prop :=
  (∀ (idx : Int) (l : Nat), (movedIndices idx l).length =
    match wordClass idx l with
    | .straddleLow => 1
    | .before => 0
    | .inside => 2
    | .straddleHigh => 1
    | .after => 0) ∧
  ∀ p l : Nat,
    (List.range (256 * requiredSectors p l)).flatMap
      (fun k => movedIndices (wordIndex (k / 256) (k % 256) (p % 512)) l) = List.range l

/-- R202, R201: the step of READ's word `(s, w)` reads one data word and moves it to the buffer by its class: index `i`
of the buffer gets the low byte where `i` is the word's index, the high byte where it is one more; no other byte of
memory changes. -/
def Obligations.ReadWordLandsInBuffer : Prop :=
  ∀ s : State, s.Inv → s.callerQueue = [] → s.seq = .run (.leg .read .xfer) →
    ∃ t, step s = .next t ∧ s.oneTransaction (.in16 s.cmdBase s.device.in16.1) t ∧ t.device = s.device.in16.2 ∧
      (∀ i, i ∈ movedIndices s.wordIdx s.tL.toNat →
        t.mem.get (s.tBuf.toNat + i) = byteFor s.wordIdx i s.device.in16.1) ∧
      (∀ a, (∀ i, i ∈ movedIndices s.wordIdx s.tL.toNat → a ≠ s.tBuf.toNat + i) → t.mem.get a = s.mem.get a) ∧
      s.sameBases t ∧ s.sameOperands t ∧ s.sameTransfer t ∧ s.sameSnaps t

/-- R204, R221, R222, R32: the step of a snapshot's word keeps it whole as element `w` of its array, sets the flag with
the 256th, and changes no other element, no byte of memory and not the cursor. -/
def Obligations.SnapshotWordKept : Prop :=
  ∀ (s : State) (l : Leg), s.Inv → s.callerQueue = [] → s.seq = .run (.leg l .xfer) →
    l = .snapStart ∨ l = .snapEnd →
    ∃ t, step s = .next t ∧ s.oneTransaction (.in16 s.cmdBase s.device.in16.1) t ∧ t.device = s.device.in16.2 ∧
      (l = .snapStart → t.startSnap[s.loopW.toNat]? = some (some s.device.in16.1) ∧
        (∀ k, k ≠ s.loopW.toNat → t.startSnap[k]? = s.startSnap[k]?) ∧ t.endSnap = s.endSnap ∧
        t.haveStart = decide (s.loopW.toNat = 255) ∧ t.haveEnd = s.haveEnd) ∧
      (l = .snapEnd → t.endSnap[s.loopW.toNat]? = some (some s.device.in16.1) ∧
        (∀ k, k ≠ s.loopW.toNat → t.endSnap[k]? = s.endSnap[k]?) ∧ t.startSnap = s.startSnap ∧
        t.haveEnd = decide (s.loopW.toNat = 255) ∧ t.haveStart = s.haveStart) ∧
      s.sameStatus t ∧ s.sameBases t ∧ s.sameOperands t ∧ s.sameTransfer t ∧ s.sameBytes t

/-- R225, R224: the step of WRITE's word `(s, w)` writes one data word, made by its class from the buffer and the snapshots, and
changes no byte of memory. -/
def Obligations.MergedWordPushed : Prop :=
  ∀ s : State, s.Inv → s.callerQueue = [] → s.seq = .run (.leg .write .xfer) →
    ∃ t v, step s = .next t ∧ s.oneTransaction (.out16 s.cmdBase v) t ∧ t.device = s.device.out16 v ∧
      (match wordClass s.wordIdx s.tL.toNat with
        | .straddleLow => ∃ e, s.startSnap[s.loopW.toNat]? = some (some e) ∧
            v = s.mem.get s.tBuf.toNat ++ e.extractLsb' 0 8
        | .before => s.startSnap[s.loopW.toNat]? = some (some v)
        | .inside => v = s.mem.get (s.tBuf.toNat + s.wordIdx.toNat + 1) ++ s.mem.get (s.tBuf.toNat + s.wordIdx.toNat)
        | .straddleHigh => ∃ e, s.endSnap[s.loopW.toNat]? = some (some e) ∧
            v = e.extractLsb' 8 8 ++ s.mem.get (s.tBuf.toNat + s.wordIdx.toNat)
        | .after => s.endSnap[s.loopW.toNat]? = some (some v)) ∧
      s.sameStatus t ∧ s.sameBases t ∧ s.sameOperands t ∧ s.sameTransfer t ∧ s.sameSnaps t ∧ s.sameBytes t

/-- R201, R224, R226: what comes after a word of READ's or WRITE's data phase: the next word of the sector, the next
sector's `waitReady`, or the end of the phase (READ completes, WRITE goes to its flush). That s is already the next
sector and w already 0 at that `waitReady`, which comes before the rules start them, is the model's choice: log entry 6. -/
def Obligations.DataPhaseOrder : Prop :=
  ∀ (s t : State) (l : Leg), s.Inv → s.callerQueue = [] → s.seq = .run (.leg l .xfer) →
    l = .read ∨ l = .write → step s = .next t →
    (s.loopW.toNat < 255 →
      t.seq = .run (.leg l .xfer) ∧ t.loopS = s.loopS ∧ t.loopW.toNat = s.loopW.toNat + 1) ∧
    (s.loopW.toNat = 255 → s.loopS.toNat + 1 < s.tSect.toNat →
      t.seq = .run (.leg l .wrBsy) ∧ t.loopS.toNat = s.loopS.toNat + 1 ∧ t.loopW.toNat = 0) ∧
    (s.loopW.toNat = 255 → s.loopS.toNat + 1 = s.tSect.toNat →
      t.seq = if l = .read then .idle else .run .flBsy)

/-! ### The whole machine -/

/-- R42: the reset values the spec gives. -/
def Obligations.ResetValues : Prop :=
  State.reset.seq = .uninit ∧ State.reset.ustat = 0x0000#16 ∧ State.reset.cmdBase = 0x0000#16 ∧
    State.reset.ctlBase = 0x0000#16 ∧ State.reset.pos = 0#64 ∧ State.reset.req = 0x00#8 ∧ State.reset.arg0 = 0#64 ∧
    State.reset.arg1 = 0#64 ∧ State.reset.result = 0#64 ∧
    (∀ w, w < 256 → State.reset.startSnap[w]? = some none ∧ State.reset.endSnap[w]? = some none) ∧
    State.reset.haveStart = false ∧ State.reset.haveEnd = false

/-- R280: a hardware reset from any state: the values of R42, the request in progress abandoned, no port transaction, the
device and caller memory untouched; and it is the only way out of FAULTED. -/
def Obligations.HardwareResetEffect : Prop :=
  (∀ (s : State) rest, s.callerQueue = .hardReset :: rest →
    ∃ t, step s = .next t ∧ t.seq = .uninit ∧ t.ustat = 0x0000#16 ∧ t.cmdBase = 0x0000#16 ∧ t.ctlBase = 0x0000#16 ∧
      t.pos = 0#64 ∧ t.req = 0x00#8 ∧ t.arg0 = 0#64 ∧ t.arg1 = 0#64 ∧ t.result = 0#64 ∧
      (∀ w, w < 256 → t.startSnap[w]? = some none ∧ t.endSnap[w]? = some none) ∧ t.haveStart = false ∧
      t.haveEnd = false ∧ t.snapshotFault = false ∧ s.noTransaction t ∧ s.sameBytes t ∧ t.callerQueue = rest ∧ unitStep t = .next t) ∧
  ∀ s t : State, s.seq = .faulted → step s = .next t → t.seq ≠ .faulted → s.resetNext = true

/-- R255, R260: every step that enters FAULTED from a legal state, whatever raised the fault, changes ERR, FAULT, BUSY and SEQ
only, and the faulted unit makes no further step of its own. That the hidden registers of an abandoned request keep
their contents is the model's choice (log entry 5), and that the bases stand still in the step of INIT's status read is its
reading of R130 (log entry 8). -/
def Obligations.FaultEntryEffect : Prop :=
  ∀ s t : State, s.Inv → step s = .next t → s.seq ≠ .faulted → t.seq = .faulted →
    (∃ c : FatalCode, t.ustat = ustatOf false s.inited true c.code ∧ (c ≠ .deviceAbsent → s.noTransaction t)) ∧
      t.pos = s.pos ∧ t.req = s.req ∧ t.result = s.result ∧ s.sameBases t ∧ s.sameOperands t ∧ s.sameTransfer t ∧
      s.sameLoops t ∧ s.sameSnaps t ∧ s.sameBytes t ∧ unitStep t = .next t

/-- R259: FAULTED is final until reset, over any number of steps; ARG0 and ARG1 stay writable. -/
def Obligations.FaultedIsFinal : Prop :=
  (∀ (s t : State) (n : Nat), s.seq = .faulted → CallerMove.hardReset ∉ s.callerQueue → steps n s = .next t →
    s.sameUnit t ∧ s.noTransaction t) ∧
  (∀ (s : State) v rest, s.seq = .faulted → s.callerQueue = .writeArg0 v :: rest →
    ∃ t, step s = .next t ∧ t.arg0 = v) ∧
  (∀ (s : State) v rest, s.seq = .faulted → s.callerQueue = .writeArg1 v :: rest →
    ∃ t, step s = .next t ∧ t.arg1 = v) ∧
  ∀ (s : State) r rest, s.seq = .faulted → s.callerQueue = .readReg r :: rest →
    ∃ t, step s = .next t ∧ t.callerIn = s.callerRead r

/-- R257, R200, R220, R130: the step in which a running request ends without a fault. -/
def Obligations.CompletionEffect : Prop :=
  ∀ s t : State, s.Inv → step s = .next t → s.resetNext = false → s.busy = true → t.busy = false →
    t.seq ≠ .faulted →
    t.ustat = ustatOf false true false 0x00#8 ∧ t.seq = .idle ∧
      (s.seq = .run .initControl → t.pos = 0#64 ∧ t.result = 0#64) ∧
      (s.seq ≠ .run .initControl → t.pos.toNat = s.pos.toNat + s.tL.toNat ∧ t.result = s.tL)

/-- R291, R160, R21, R22, R26, R30, R130: while a request goes on, POS, USTAT, REQ, RESULT, the bases and the latched
registers do not move. That the bases stand still over INIT's status read is the model's reading of R130 (log entry 8),
that REQ keeps its word is log entry 7, and that INIT leaves the latched registers is log entry 5. -/
def Obligations.RegistersSteadyWhileBusy : Prop :=
  ∀ s t : State, s.Inv → step s = .next t → s.resetNext = false → s.busy = true → t.busy = true →
    s.sameStatus t ∧ s.sameBases t ∧ s.sameTransfer t

/-- R36: the transitions of SEQ. -/
def Obligations.SeqTransitions : Prop :=
  ∀ s t : State, s.Inv → step s = .next t → s.resetNext = false → t.seq ≠ s.seq →
    (s.seq = .uninit ∧ (t.seq = .run .initStatus ∨ t.seq = .faulted)) ∨
    (s.seq = .idle ∧ ((∃ l, t.seq = .run (.leg l .bw)) ∨ t.seq = .faulted)) ∨
    ∃ p, s.seq = .run p ∧
      ((∃ q, t.seq = .run q ∧ q.request = p.request) ∨ t.seq = .idle ∨ t.seq = .faulted)

/-- R21, R22, R130: only INIT, or a reset, writes the bases. That INIT does so in the step of the caller's write to REQ, and
not in that of its status read, is the model's reading: log entry 8. -/
def Obligations.OnlyInitWritesBases : Prop :=
  ∀ s t : State, s.Inv → step s = .next t → s.resetNext = false → ¬ s.sameBases t →
    s.seq = .uninit ∧ ∃ rest, s.callerQueue = .writeReq 0x01#8 :: rest

/-- R51, R65: the unit changes a byte of caller memory only in READ's data phase and only inside its buffer. -/
def Obligations.OnlyReadWritesItsBuffer : Prop :=
  ∀ (s t : State) (a : Nat), s.Inv → step s = .next t → s.memMoveNext = none → t.mem.get a ≠ s.mem.get a →
    s.seq = .run (.leg .read .xfer) ∧ s.tBuf.toNat ≤ a ∧ a < s.tBuf.toNat + s.tL.toNat

/-- R21-R29: the caller's register moves. A read returns the register's value (REQ reads `0x00`); a write of ARG0 or ARG1
changes that register and not the request in progress. -/
def Obligations.CallerRegisterMoves : Prop :=
  ∀ (s : State) rest,
    (∀ r, s.callerQueue = .readReg r :: rest → ∃ t, step s = .next t ∧ s.sameUnit t ∧ s.sameOperands t ∧
      s.noTransaction t ∧ s.sameBytes t ∧ t.callerQueue = rest ∧
      t.callerIn.toNat = match r with
        | .cmdBase => s.cmdBase.toNat
        | .ctlBase => s.ctlBase.toNat
        | .pos => s.pos.toNat
        | .ustat => s.ustat.toNat
        | .req => 0
        | .arg0 => s.arg0.toNat
        | .arg1 => s.arg1.toNat
        | .result => s.result.toNat) ∧
    (∀ v, s.callerQueue = .writeArg0 v :: rest → ∃ t, step s = .next t ∧ t.arg0 = v ∧ t.arg1 = s.arg1 ∧
      s.sameUnit t ∧ s.noTransaction t ∧ s.sameBytes t) ∧
    (∀ v, s.callerQueue = .writeArg1 v :: rest → ∃ t, step s = .next t ∧ t.arg1 = v ∧ t.arg0 = s.arg0 ∧
      s.sameUnit t ∧ s.noTransaction t ∧ s.sameBytes t)

/-- The caller's memory moves: they take effect outside the buffer of a running READ or WRITE and are refused inside it,
which R68 leaves to the caller's duty and the model refuses (log entry 11). -/
def Obligations.CallerMemoryMoves : Prop :=
  ∀ (s : State) (a : Word64) rest,
    (∀ v, s.callerQueue = .writeMem a v :: rest → s.mem.wf = true →
      (ownedByUnit s a.toNat = true → step s = .refused .ownershipBroken) ∧
      (ownedByUnit s a.toNat = false → ∃ t, step s = .next t ∧ t.mem.get a.toNat = v ∧
        (∀ b, b ≠ a.toNat → t.mem.get b = s.mem.get b) ∧ s.sameUnit t ∧ s.sameOperands t ∧ s.noTransaction t)) ∧
    (s.callerQueue = .readMem a :: rest →
      (ownedByUnit s a.toNat = true → step s = .refused .ownershipBroken) ∧
      (ownedByUnit s a.toNat = false → ∃ t, step s = .next t ∧ t.callerIn.toNat = (s.mem.get a.toNat).toNat ∧
        s.sameUnit t ∧ s.sameOperands t ∧ s.noTransaction t ∧ s.sameBytes t))

/-- R25: the legal values of USTAT, in every legal state. -/
def Obligations.UstatLegalValues : Prop :=
  ∀ s : State, s.Inv →
    s.ustat.extractLsb' 3 5 = 0#5 ∧
    (s.faultFlag = false → s.err = 0x00#8 ∨ s.err = 0x01#8 ∨ s.err = 0x02#8) ∧
    (s.faultFlag = true → s.busy = false ∧ 0x80 ≤ s.err.toNat ∧ s.err.toNat ≤ 0x88) ∧
    (s.busy = true ↔ ∃ p, s.seq = .run p) ∧ (s.faultFlag = true ↔ s.seq = .faulted) ∧
    (s.seq = .idle → s.inited = true) ∧ (s.seq = .uninit → s.inited = false) ∧
    (s.seq = .run .initStatus ∨ s.seq = .run .initControl → s.inited = false)

/-- The state after reset is a legal state. -/
def Obligations.ResetIsLegal : Prop := State.reset.Inv

/-- THE INVARIANT: from every legal state every step answers a legal state. What it says of the loop variables at the two
loops of `waitReady` is the model's choice: log entry 6. -/
def Obligations.StepKeepsLegalStates : Prop :=
  ∀ s t : State, s.Inv → step s = .next t → t.Inv

/-- R262 and log entries 9 to 12: from a legal state no step raises UNWRITTEN_SNAPSHOT (no unwritten snapshot element is ever
read) and none faults (no byte outside caller memory is ever touched), and the only refusal is of a caller's access to
the buffer in use. -/
def Obligations.LegalStatesDoNotStop : Prop :=
  ∀ s : State, s.Inv →
    (∃ t, step s = .next t ∧ t.snapshotFault = false) ∨
    (step s = .refused .ownershipBroken ∧ ∃ a, s.memMoveNext = some a ∧ ownedByUnit s a = true)

/-- R203: a whole READ against the reference device (R75-R77): it completes in `8 + 258 * RSC` steps, the cursor advances,
RESULT is the length, caller byte `i` is the device byte at position `POS + i`, no other byte of memory changes and the
disk is as before. Positions count modulo `2^37` because the LBA has 28 bits on the wire (R183). -/
def Obligations.ReadReturnsDeviceBytes : Prop :=
  ∀ (s : State) (d : RefDevice), s.Inv → s.seq = .idle → s.callerQueue = [.writeReq 0x05#8] →
    s.device = .present d → d.phase = .idle → 0 < s.arg1.toNat → s.TransferFits →
    ∃ t, steps (8 + 258 * requiredSectors s.pos.toNat s.arg1.toNat) s = .next t ∧ t.seq = .idle ∧
      t.pos = s.pos + s.arg1 ∧ t.result = s.arg1 ∧ t.ustat = 0x0002#16 ∧
      (∃ e, t.device = .present e ∧ e.disk = d.disk ∧ e.phase = .idle) ∧
      (∀ i, i < s.arg1.toNat → t.mem.get (s.arg0.toNat + i) = d.disk.get ((s.pos.toNat + i) % 2 ^ 37)) ∧
      ∀ a, a < s.arg0.toNat ∨ s.arg0.toNat + s.arg1.toNat ≤ a → t.mem.get a = s.mem.get a

/-- R227: a whole WRITE against the reference device: the device byte at `POS + i` becomes caller byte `i` and every other
byte of the disk is as before; caller memory is as before; the steps count the acceptance, the snapshots of R223, the
data phase and the closing flush. -/
def Obligations.WritePreservesOtherBytes : Prop :=
  ∀ (s : State) (d : RefDevice), s.Inv → s.seq = .idle → s.callerQueue = [.writeReq 0x06#8] →
    s.device = .present d → d.phase = .idle → 0 < s.arg1.toNat → s.TransferFits →
    ∃ t, steps (10 + (if s.pos.toNat % 512 = 0 then 0 else 265) +
        (if (s.pos.toNat + s.arg1.toNat) % 512 = 0 then 0 else 265) +
        258 * requiredSectors s.pos.toNat s.arg1.toNat) s = .next t ∧ t.seq = .idle ∧
      t.pos = s.pos + s.arg1 ∧ t.result = s.arg1 ∧ t.ustat = 0x0002#16 ∧ s.sameBytes t ∧
      ∃ e, t.device = .present e ∧ e.phase = .idle ∧
        (∀ i, i < s.arg1.toNat → e.disk.get ((s.pos.toNat + i) % 2 ^ 37) = s.mem.get (s.arg0.toNat + i)) ∧
        ∀ p, (∀ i, i < s.arg1.toNat → p ≠ (s.pos.toNat + i) % 2 ^ 37) → e.disk.get p = d.disk.get p

/-! ### The model's own fault -/

/-- R262, R33: from every state at WRITE's data word, legal or not, whose merge reads a snapshot element that holds no value,
the step raises UNWRITTEN_SNAPSHOT: FAULTED, FAULT=1, BUSY=0, no port transaction, everything else as before, and no
further step of the unit's own. What ERR holds is left open, because the unit has no code for it; the mark is the model's:
log entry 9. -/
def Obligations.UnwrittenElementEntersFaulted : Prop :=
  ∀ s : State, s.callerQueue = [] → s.seq = .run (.leg .write .xfer) → s.unwrittenElement →
    ∃ t, step s = .next t ∧ t.seq = .faulted ∧ t.faultFlag = true ∧ t.busy = false ∧ t.inited = s.inited ∧
      ustatReserved t.ustat = 0#5 ∧ t.snapshotFault = true ∧ t.pos = s.pos ∧ t.req = s.req ∧ t.result = s.result ∧
      t.startSnap = s.startSnap ∧ t.endSnap = s.endSnap ∧ t.haveStart = s.haveStart ∧ t.haveEnd = s.haveEnd ∧
      s.sameBases t ∧ s.sameOperands t ∧ s.sameTransfer t ∧ s.sameLoops t ∧ s.sameCaller t ∧ s.sameBytes t ∧
      s.noTransaction t ∧ unitStep t = .next t
end

