-- ==== Sys2Proof/Laws/State.lean ====
section
/-! SUPPORT. One lemma for each field of State under each named update: what the update writes, and that it leaves every
other field. -/

namespace Sys2Proof.Machine

variable (s : State)

/-! ### portIn8 -/

@[simp] theorem portIn8_cmdBase (p : PortName) : (portIn8 p s).2.cmdBase = s.cmdBase := rfl
@[simp] theorem portIn8_ctlBase (p : PortName) : (portIn8 p s).2.ctlBase = s.ctlBase := rfl
@[simp] theorem portIn8_pos (p : PortName) : (portIn8 p s).2.pos = s.pos := rfl
@[simp] theorem portIn8_ustat (p : PortName) : (portIn8 p s).2.ustat = s.ustat := rfl
@[simp] theorem portIn8_req (p : PortName) : (portIn8 p s).2.req = s.req := rfl
@[simp] theorem portIn8_arg0 (p : PortName) : (portIn8 p s).2.arg0 = s.arg0 := rfl
@[simp] theorem portIn8_arg1 (p : PortName) : (portIn8 p s).2.arg1 = s.arg1 := rfl
@[simp] theorem portIn8_result (p : PortName) : (portIn8 p s).2.result = s.result := rfl
@[simp] theorem portIn8_tOp (p : PortName) : (portIn8 p s).2.tOp = s.tOp := rfl
@[simp] theorem portIn8_tBuf (p : PortName) : (portIn8 p s).2.tBuf = s.tBuf := rfl
@[simp] theorem portIn8_tL (p : PortName) : (portIn8 p s).2.tL = s.tL := rfl
@[simp] theorem portIn8_tOff (p : PortName) : (portIn8 p s).2.tOff = s.tOff := rfl
@[simp] theorem portIn8_tLba (p : PortName) : (portIn8 p s).2.tLba = s.tLba := rfl
@[simp] theorem portIn8_tSect (p : PortName) : (portIn8 p s).2.tSect = s.tSect := rfl
@[simp] theorem portIn8_tEnd (p : PortName) : (portIn8 p s).2.tEnd = s.tEnd := rfl
@[simp] theorem portIn8_loopS (p : PortName) : (portIn8 p s).2.loopS = s.loopS := rfl
@[simp] theorem portIn8_loopW (p : PortName) : (portIn8 p s).2.loopW = s.loopW := rfl
@[simp] theorem portIn8_startSnap (p : PortName) : (portIn8 p s).2.startSnap = s.startSnap := rfl
@[simp] theorem portIn8_endSnap (p : PortName) : (portIn8 p s).2.endSnap = s.endSnap := rfl
@[simp] theorem portIn8_haveStart (p : PortName) : (portIn8 p s).2.haveStart = s.haveStart := rfl
@[simp] theorem portIn8_haveEnd (p : PortName) : (portIn8 p s).2.haveEnd = s.haveEnd := rfl
@[simp] theorem portIn8_snapshotFault (p : PortName) : (portIn8 p s).2.snapshotFault = s.snapshotFault := rfl
@[simp] theorem portIn8_seq (p : PortName) : (portIn8 p s).2.seq = s.seq := rfl
@[simp] theorem portIn8_mem (p : PortName) : (portIn8 p s).2.mem = s.mem := rfl
@[simp] theorem portIn8_device (p : PortName) : (portIn8 p s).2.device = (s.device.in8 p).2 := rfl
@[simp] theorem portIn8_trace (p : PortName) : (portIn8 p s).2.trace = .in8 p (s.portAddr p) (s.device.in8 p).1 :: s.trace := rfl
@[simp] theorem portIn8_callerQueue (p : PortName) : (portIn8 p s).2.callerQueue = s.callerQueue := rfl
@[simp] theorem portIn8_callerIn (p : PortName) : (portIn8 p s).2.callerIn = s.callerIn := rfl

/-! ### portOut8 -/

@[simp] theorem portOut8_cmdBase (p : PortName) (v : Byte) : (portOut8 p v s).cmdBase = s.cmdBase := rfl
@[simp] theorem portOut8_ctlBase (p : PortName) (v : Byte) : (portOut8 p v s).ctlBase = s.ctlBase := rfl
@[simp] theorem portOut8_pos (p : PortName) (v : Byte) : (portOut8 p v s).pos = s.pos := rfl
@[simp] theorem portOut8_ustat (p : PortName) (v : Byte) : (portOut8 p v s).ustat = s.ustat := rfl
@[simp] theorem portOut8_req (p : PortName) (v : Byte) : (portOut8 p v s).req = s.req := rfl
@[simp] theorem portOut8_arg0 (p : PortName) (v : Byte) : (portOut8 p v s).arg0 = s.arg0 := rfl
@[simp] theorem portOut8_arg1 (p : PortName) (v : Byte) : (portOut8 p v s).arg1 = s.arg1 := rfl
@[simp] theorem portOut8_result (p : PortName) (v : Byte) : (portOut8 p v s).result = s.result := rfl
@[simp] theorem portOut8_tOp (p : PortName) (v : Byte) : (portOut8 p v s).tOp = s.tOp := rfl
@[simp] theorem portOut8_tBuf (p : PortName) (v : Byte) : (portOut8 p v s).tBuf = s.tBuf := rfl
@[simp] theorem portOut8_tL (p : PortName) (v : Byte) : (portOut8 p v s).tL = s.tL := rfl
@[simp] theorem portOut8_tOff (p : PortName) (v : Byte) : (portOut8 p v s).tOff = s.tOff := rfl
@[simp] theorem portOut8_tLba (p : PortName) (v : Byte) : (portOut8 p v s).tLba = s.tLba := rfl
@[simp] theorem portOut8_tSect (p : PortName) (v : Byte) : (portOut8 p v s).tSect = s.tSect := rfl
@[simp] theorem portOut8_tEnd (p : PortName) (v : Byte) : (portOut8 p v s).tEnd = s.tEnd := rfl
@[simp] theorem portOut8_loopS (p : PortName) (v : Byte) : (portOut8 p v s).loopS = s.loopS := rfl
@[simp] theorem portOut8_loopW (p : PortName) (v : Byte) : (portOut8 p v s).loopW = s.loopW := rfl
@[simp] theorem portOut8_startSnap (p : PortName) (v : Byte) : (portOut8 p v s).startSnap = s.startSnap := rfl
@[simp] theorem portOut8_endSnap (p : PortName) (v : Byte) : (portOut8 p v s).endSnap = s.endSnap := rfl
@[simp] theorem portOut8_haveStart (p : PortName) (v : Byte) : (portOut8 p v s).haveStart = s.haveStart := rfl
@[simp] theorem portOut8_haveEnd (p : PortName) (v : Byte) : (portOut8 p v s).haveEnd = s.haveEnd := rfl
@[simp] theorem portOut8_snapshotFault (p : PortName) (v : Byte) : (portOut8 p v s).snapshotFault = s.snapshotFault := rfl
@[simp] theorem portOut8_seq (p : PortName) (v : Byte) : (portOut8 p v s).seq = s.seq := rfl
@[simp] theorem portOut8_mem (p : PortName) (v : Byte) : (portOut8 p v s).mem = s.mem := rfl
@[simp] theorem portOut8_device (p : PortName) (v : Byte) : (portOut8 p v s).device = s.device.out8 p v := rfl
@[simp] theorem portOut8_trace (p : PortName) (v : Byte) : (portOut8 p v s).trace = .out8 p (s.portAddr p) v :: s.trace := rfl
@[simp] theorem portOut8_callerQueue (p : PortName) (v : Byte) : (portOut8 p v s).callerQueue = s.callerQueue := rfl
@[simp] theorem portOut8_callerIn (p : PortName) (v : Byte) : (portOut8 p v s).callerIn = s.callerIn := rfl

/-! ### portIn16 -/

@[simp] theorem portIn16_cmdBase : (portIn16 s).2.cmdBase = s.cmdBase := rfl
@[simp] theorem portIn16_ctlBase : (portIn16 s).2.ctlBase = s.ctlBase := rfl
@[simp] theorem portIn16_pos : (portIn16 s).2.pos = s.pos := rfl
@[simp] theorem portIn16_ustat : (portIn16 s).2.ustat = s.ustat := rfl
@[simp] theorem portIn16_req : (portIn16 s).2.req = s.req := rfl
@[simp] theorem portIn16_arg0 : (portIn16 s).2.arg0 = s.arg0 := rfl
@[simp] theorem portIn16_arg1 : (portIn16 s).2.arg1 = s.arg1 := rfl
@[simp] theorem portIn16_result : (portIn16 s).2.result = s.result := rfl
@[simp] theorem portIn16_tOp : (portIn16 s).2.tOp = s.tOp := rfl
@[simp] theorem portIn16_tBuf : (portIn16 s).2.tBuf = s.tBuf := rfl
@[simp] theorem portIn16_tL : (portIn16 s).2.tL = s.tL := rfl
@[simp] theorem portIn16_tOff : (portIn16 s).2.tOff = s.tOff := rfl
@[simp] theorem portIn16_tLba : (portIn16 s).2.tLba = s.tLba := rfl
@[simp] theorem portIn16_tSect : (portIn16 s).2.tSect = s.tSect := rfl
@[simp] theorem portIn16_tEnd : (portIn16 s).2.tEnd = s.tEnd := rfl
@[simp] theorem portIn16_loopS : (portIn16 s).2.loopS = s.loopS := rfl
@[simp] theorem portIn16_loopW : (portIn16 s).2.loopW = s.loopW := rfl
@[simp] theorem portIn16_startSnap : (portIn16 s).2.startSnap = s.startSnap := rfl
@[simp] theorem portIn16_endSnap : (portIn16 s).2.endSnap = s.endSnap := rfl
@[simp] theorem portIn16_haveStart : (portIn16 s).2.haveStart = s.haveStart := rfl
@[simp] theorem portIn16_haveEnd : (portIn16 s).2.haveEnd = s.haveEnd := rfl
@[simp] theorem portIn16_snapshotFault : (portIn16 s).2.snapshotFault = s.snapshotFault := rfl
@[simp] theorem portIn16_seq : (portIn16 s).2.seq = s.seq := rfl
@[simp] theorem portIn16_mem : (portIn16 s).2.mem = s.mem := rfl
@[simp] theorem portIn16_device : (portIn16 s).2.device = s.device.in16.2 := rfl
@[simp] theorem portIn16_trace : (portIn16 s).2.trace = .in16 (s.portAddr .data) s.device.in16.1 :: s.trace := rfl
@[simp] theorem portIn16_callerQueue : (portIn16 s).2.callerQueue = s.callerQueue := rfl
@[simp] theorem portIn16_callerIn : (portIn16 s).2.callerIn = s.callerIn := rfl

/-! ### portOut16 -/

@[simp] theorem portOut16_cmdBase (v : Word16) : (portOut16 v s).cmdBase = s.cmdBase := rfl
@[simp] theorem portOut16_ctlBase (v : Word16) : (portOut16 v s).ctlBase = s.ctlBase := rfl
@[simp] theorem portOut16_pos (v : Word16) : (portOut16 v s).pos = s.pos := rfl
@[simp] theorem portOut16_ustat (v : Word16) : (portOut16 v s).ustat = s.ustat := rfl
@[simp] theorem portOut16_req (v : Word16) : (portOut16 v s).req = s.req := rfl
@[simp] theorem portOut16_arg0 (v : Word16) : (portOut16 v s).arg0 = s.arg0 := rfl
@[simp] theorem portOut16_arg1 (v : Word16) : (portOut16 v s).arg1 = s.arg1 := rfl
@[simp] theorem portOut16_result (v : Word16) : (portOut16 v s).result = s.result := rfl
@[simp] theorem portOut16_tOp (v : Word16) : (portOut16 v s).tOp = s.tOp := rfl
@[simp] theorem portOut16_tBuf (v : Word16) : (portOut16 v s).tBuf = s.tBuf := rfl
@[simp] theorem portOut16_tL (v : Word16) : (portOut16 v s).tL = s.tL := rfl
@[simp] theorem portOut16_tOff (v : Word16) : (portOut16 v s).tOff = s.tOff := rfl
@[simp] theorem portOut16_tLba (v : Word16) : (portOut16 v s).tLba = s.tLba := rfl
@[simp] theorem portOut16_tSect (v : Word16) : (portOut16 v s).tSect = s.tSect := rfl
@[simp] theorem portOut16_tEnd (v : Word16) : (portOut16 v s).tEnd = s.tEnd := rfl
@[simp] theorem portOut16_loopS (v : Word16) : (portOut16 v s).loopS = s.loopS := rfl
@[simp] theorem portOut16_loopW (v : Word16) : (portOut16 v s).loopW = s.loopW := rfl
@[simp] theorem portOut16_startSnap (v : Word16) : (portOut16 v s).startSnap = s.startSnap := rfl
@[simp] theorem portOut16_endSnap (v : Word16) : (portOut16 v s).endSnap = s.endSnap := rfl
@[simp] theorem portOut16_haveStart (v : Word16) : (portOut16 v s).haveStart = s.haveStart := rfl
@[simp] theorem portOut16_haveEnd (v : Word16) : (portOut16 v s).haveEnd = s.haveEnd := rfl
@[simp] theorem portOut16_snapshotFault (v : Word16) : (portOut16 v s).snapshotFault = s.snapshotFault := rfl
@[simp] theorem portOut16_seq (v : Word16) : (portOut16 v s).seq = s.seq := rfl
@[simp] theorem portOut16_mem (v : Word16) : (portOut16 v s).mem = s.mem := rfl
@[simp] theorem portOut16_device (v : Word16) : (portOut16 v s).device = s.device.out16 v := rfl
@[simp] theorem portOut16_trace (v : Word16) : (portOut16 v s).trace = .out16 (s.portAddr .data) v :: s.trace := rfl
@[simp] theorem portOut16_callerQueue (v : Word16) : (portOut16 v s).callerQueue = s.callerQueue := rfl
@[simp] theorem portOut16_callerIn (v : Word16) : (portOut16 v s).callerIn = s.callerIn := rfl

/-! ### goPoint -/

@[simp] theorem goPoint_cmdBase (pt : Point) : (goPoint pt s).cmdBase = s.cmdBase := rfl
@[simp] theorem goPoint_ctlBase (pt : Point) : (goPoint pt s).ctlBase = s.ctlBase := rfl
@[simp] theorem goPoint_pos (pt : Point) : (goPoint pt s).pos = s.pos := rfl
@[simp] theorem goPoint_ustat (pt : Point) : (goPoint pt s).ustat = s.ustat := rfl
@[simp] theorem goPoint_req (pt : Point) : (goPoint pt s).req = s.req := rfl
@[simp] theorem goPoint_arg0 (pt : Point) : (goPoint pt s).arg0 = s.arg0 := rfl
@[simp] theorem goPoint_arg1 (pt : Point) : (goPoint pt s).arg1 = s.arg1 := rfl
@[simp] theorem goPoint_result (pt : Point) : (goPoint pt s).result = s.result := rfl
@[simp] theorem goPoint_tOp (pt : Point) : (goPoint pt s).tOp = s.tOp := rfl
@[simp] theorem goPoint_tBuf (pt : Point) : (goPoint pt s).tBuf = s.tBuf := rfl
@[simp] theorem goPoint_tL (pt : Point) : (goPoint pt s).tL = s.tL := rfl
@[simp] theorem goPoint_tOff (pt : Point) : (goPoint pt s).tOff = s.tOff := rfl
@[simp] theorem goPoint_tLba (pt : Point) : (goPoint pt s).tLba = s.tLba := rfl
@[simp] theorem goPoint_tSect (pt : Point) : (goPoint pt s).tSect = s.tSect := rfl
@[simp] theorem goPoint_tEnd (pt : Point) : (goPoint pt s).tEnd = s.tEnd := rfl
@[simp] theorem goPoint_loopS (pt : Point) : (goPoint pt s).loopS = s.loopS := rfl
@[simp] theorem goPoint_loopW (pt : Point) : (goPoint pt s).loopW = s.loopW := rfl
@[simp] theorem goPoint_startSnap (pt : Point) : (goPoint pt s).startSnap = s.startSnap := rfl
@[simp] theorem goPoint_endSnap (pt : Point) : (goPoint pt s).endSnap = s.endSnap := rfl
@[simp] theorem goPoint_haveStart (pt : Point) : (goPoint pt s).haveStart = s.haveStart := rfl
@[simp] theorem goPoint_haveEnd (pt : Point) : (goPoint pt s).haveEnd = s.haveEnd := rfl
@[simp] theorem goPoint_snapshotFault (pt : Point) : (goPoint pt s).snapshotFault = s.snapshotFault := rfl
@[simp] theorem goPoint_seq (pt : Point) : (goPoint pt s).seq = .run pt := rfl
@[simp] theorem goPoint_mem (pt : Point) : (goPoint pt s).mem = s.mem := rfl
@[simp] theorem goPoint_device (pt : Point) : (goPoint pt s).device = s.device := rfl
@[simp] theorem goPoint_trace (pt : Point) : (goPoint pt s).trace = s.trace := rfl
@[simp] theorem goPoint_callerQueue (pt : Point) : (goPoint pt s).callerQueue = s.callerQueue := rfl
@[simp] theorem goPoint_callerIn (pt : Point) : (goPoint pt s).callerIn = s.callerIn := rfl

/-! ### raiseFault -/

@[simp] theorem raiseFault_cmdBase (c : FatalCode) : (raiseFault c s).cmdBase = s.cmdBase := rfl
@[simp] theorem raiseFault_ctlBase (c : FatalCode) : (raiseFault c s).ctlBase = s.ctlBase := rfl
@[simp] theorem raiseFault_pos (c : FatalCode) : (raiseFault c s).pos = s.pos := rfl
@[simp] theorem raiseFault_ustat (c : FatalCode) : (raiseFault c s).ustat = ustatOf false s.inited true c.code := rfl
@[simp] theorem raiseFault_req (c : FatalCode) : (raiseFault c s).req = s.req := rfl
@[simp] theorem raiseFault_arg0 (c : FatalCode) : (raiseFault c s).arg0 = s.arg0 := rfl
@[simp] theorem raiseFault_arg1 (c : FatalCode) : (raiseFault c s).arg1 = s.arg1 := rfl
@[simp] theorem raiseFault_result (c : FatalCode) : (raiseFault c s).result = s.result := rfl
@[simp] theorem raiseFault_tOp (c : FatalCode) : (raiseFault c s).tOp = s.tOp := rfl
@[simp] theorem raiseFault_tBuf (c : FatalCode) : (raiseFault c s).tBuf = s.tBuf := rfl
@[simp] theorem raiseFault_tL (c : FatalCode) : (raiseFault c s).tL = s.tL := rfl
@[simp] theorem raiseFault_tOff (c : FatalCode) : (raiseFault c s).tOff = s.tOff := rfl
@[simp] theorem raiseFault_tLba (c : FatalCode) : (raiseFault c s).tLba = s.tLba := rfl
@[simp] theorem raiseFault_tSect (c : FatalCode) : (raiseFault c s).tSect = s.tSect := rfl
@[simp] theorem raiseFault_tEnd (c : FatalCode) : (raiseFault c s).tEnd = s.tEnd := rfl
@[simp] theorem raiseFault_loopS (c : FatalCode) : (raiseFault c s).loopS = s.loopS := rfl
@[simp] theorem raiseFault_loopW (c : FatalCode) : (raiseFault c s).loopW = s.loopW := rfl
@[simp] theorem raiseFault_startSnap (c : FatalCode) : (raiseFault c s).startSnap = s.startSnap := rfl
@[simp] theorem raiseFault_endSnap (c : FatalCode) : (raiseFault c s).endSnap = s.endSnap := rfl
@[simp] theorem raiseFault_haveStart (c : FatalCode) : (raiseFault c s).haveStart = s.haveStart := rfl
@[simp] theorem raiseFault_haveEnd (c : FatalCode) : (raiseFault c s).haveEnd = s.haveEnd := rfl
@[simp] theorem raiseFault_snapshotFault (c : FatalCode) : (raiseFault c s).snapshotFault = s.snapshotFault := rfl
@[simp] theorem raiseFault_seq (c : FatalCode) : (raiseFault c s).seq = .faulted := rfl
@[simp] theorem raiseFault_mem (c : FatalCode) : (raiseFault c s).mem = s.mem := rfl
@[simp] theorem raiseFault_device (c : FatalCode) : (raiseFault c s).device = s.device := rfl
@[simp] theorem raiseFault_trace (c : FatalCode) : (raiseFault c s).trace = s.trace := rfl
@[simp] theorem raiseFault_callerQueue (c : FatalCode) : (raiseFault c s).callerQueue = s.callerQueue := rfl
@[simp] theorem raiseFault_callerIn (c : FatalCode) : (raiseFault c s).callerIn = s.callerIn := rfl

/-! ### raiseUnwrittenSnapshot -/

@[simp] theorem raiseUnwrittenSnapshot_cmdBase : (raiseUnwrittenSnapshot s).cmdBase = s.cmdBase := rfl
@[simp] theorem raiseUnwrittenSnapshot_ctlBase : (raiseUnwrittenSnapshot s).ctlBase = s.ctlBase := rfl
@[simp] theorem raiseUnwrittenSnapshot_pos : (raiseUnwrittenSnapshot s).pos = s.pos := rfl
@[simp] theorem raiseUnwrittenSnapshot_ustat : (raiseUnwrittenSnapshot s).ustat = ustatOf false s.inited true Config.unwrittenSnapshotErr := rfl
@[simp] theorem raiseUnwrittenSnapshot_req : (raiseUnwrittenSnapshot s).req = s.req := rfl
@[simp] theorem raiseUnwrittenSnapshot_arg0 : (raiseUnwrittenSnapshot s).arg0 = s.arg0 := rfl
@[simp] theorem raiseUnwrittenSnapshot_arg1 : (raiseUnwrittenSnapshot s).arg1 = s.arg1 := rfl
@[simp] theorem raiseUnwrittenSnapshot_result : (raiseUnwrittenSnapshot s).result = s.result := rfl
@[simp] theorem raiseUnwrittenSnapshot_tOp : (raiseUnwrittenSnapshot s).tOp = s.tOp := rfl
@[simp] theorem raiseUnwrittenSnapshot_tBuf : (raiseUnwrittenSnapshot s).tBuf = s.tBuf := rfl
@[simp] theorem raiseUnwrittenSnapshot_tL : (raiseUnwrittenSnapshot s).tL = s.tL := rfl
@[simp] theorem raiseUnwrittenSnapshot_tOff : (raiseUnwrittenSnapshot s).tOff = s.tOff := rfl
@[simp] theorem raiseUnwrittenSnapshot_tLba : (raiseUnwrittenSnapshot s).tLba = s.tLba := rfl
@[simp] theorem raiseUnwrittenSnapshot_tSect : (raiseUnwrittenSnapshot s).tSect = s.tSect := rfl
@[simp] theorem raiseUnwrittenSnapshot_tEnd : (raiseUnwrittenSnapshot s).tEnd = s.tEnd := rfl
@[simp] theorem raiseUnwrittenSnapshot_loopS : (raiseUnwrittenSnapshot s).loopS = s.loopS := rfl
@[simp] theorem raiseUnwrittenSnapshot_loopW : (raiseUnwrittenSnapshot s).loopW = s.loopW := rfl
@[simp] theorem raiseUnwrittenSnapshot_startSnap : (raiseUnwrittenSnapshot s).startSnap = s.startSnap := rfl
@[simp] theorem raiseUnwrittenSnapshot_endSnap : (raiseUnwrittenSnapshot s).endSnap = s.endSnap := rfl
@[simp] theorem raiseUnwrittenSnapshot_haveStart : (raiseUnwrittenSnapshot s).haveStart = s.haveStart := rfl
@[simp] theorem raiseUnwrittenSnapshot_haveEnd : (raiseUnwrittenSnapshot s).haveEnd = s.haveEnd := rfl
@[simp] theorem raiseUnwrittenSnapshot_snapshotFault : (raiseUnwrittenSnapshot s).snapshotFault = true := rfl
@[simp] theorem raiseUnwrittenSnapshot_seq : (raiseUnwrittenSnapshot s).seq = .faulted := rfl
@[simp] theorem raiseUnwrittenSnapshot_mem : (raiseUnwrittenSnapshot s).mem = s.mem := rfl
@[simp] theorem raiseUnwrittenSnapshot_device : (raiseUnwrittenSnapshot s).device = s.device := rfl
@[simp] theorem raiseUnwrittenSnapshot_trace : (raiseUnwrittenSnapshot s).trace = s.trace := rfl
@[simp] theorem raiseUnwrittenSnapshot_callerQueue : (raiseUnwrittenSnapshot s).callerQueue = s.callerQueue := rfl
@[simp] theorem raiseUnwrittenSnapshot_callerIn : (raiseUnwrittenSnapshot s).callerIn = s.callerIn := rfl

/-! ### completeOk -/

@[simp] theorem completeOk_cmdBase (r : Word64) : (completeOk r s).cmdBase = s.cmdBase := rfl
@[simp] theorem completeOk_ctlBase (r : Word64) : (completeOk r s).ctlBase = s.ctlBase := rfl
@[simp] theorem completeOk_pos (r : Word64) : (completeOk r s).pos = s.pos := rfl
@[simp] theorem completeOk_ustat (r : Word64) : (completeOk r s).ustat = ustatOf false s.inited s.faultFlag 0x00#8 := rfl
@[simp] theorem completeOk_req (r : Word64) : (completeOk r s).req = s.req := rfl
@[simp] theorem completeOk_arg0 (r : Word64) : (completeOk r s).arg0 = s.arg0 := rfl
@[simp] theorem completeOk_arg1 (r : Word64) : (completeOk r s).arg1 = s.arg1 := rfl
@[simp] theorem completeOk_result (r : Word64) : (completeOk r s).result = r := rfl
@[simp] theorem completeOk_tOp (r : Word64) : (completeOk r s).tOp = s.tOp := rfl
@[simp] theorem completeOk_tBuf (r : Word64) : (completeOk r s).tBuf = s.tBuf := rfl
@[simp] theorem completeOk_tL (r : Word64) : (completeOk r s).tL = s.tL := rfl
@[simp] theorem completeOk_tOff (r : Word64) : (completeOk r s).tOff = s.tOff := rfl
@[simp] theorem completeOk_tLba (r : Word64) : (completeOk r s).tLba = s.tLba := rfl
@[simp] theorem completeOk_tSect (r : Word64) : (completeOk r s).tSect = s.tSect := rfl
@[simp] theorem completeOk_tEnd (r : Word64) : (completeOk r s).tEnd = s.tEnd := rfl
@[simp] theorem completeOk_loopS (r : Word64) : (completeOk r s).loopS = s.loopS := rfl
@[simp] theorem completeOk_loopW (r : Word64) : (completeOk r s).loopW = s.loopW := rfl
@[simp] theorem completeOk_startSnap (r : Word64) : (completeOk r s).startSnap = s.startSnap := rfl
@[simp] theorem completeOk_endSnap (r : Word64) : (completeOk r s).endSnap = s.endSnap := rfl
@[simp] theorem completeOk_haveStart (r : Word64) : (completeOk r s).haveStart = s.haveStart := rfl
@[simp] theorem completeOk_haveEnd (r : Word64) : (completeOk r s).haveEnd = s.haveEnd := rfl
@[simp] theorem completeOk_snapshotFault (r : Word64) : (completeOk r s).snapshotFault = s.snapshotFault := rfl
@[simp] theorem completeOk_seq (r : Word64) : (completeOk r s).seq = .idle := rfl
@[simp] theorem completeOk_mem (r : Word64) : (completeOk r s).mem = s.mem := rfl
@[simp] theorem completeOk_device (r : Word64) : (completeOk r s).device = s.device := rfl
@[simp] theorem completeOk_trace (r : Word64) : (completeOk r s).trace = s.trace := rfl
@[simp] theorem completeOk_callerQueue (r : Word64) : (completeOk r s).callerQueue = s.callerQueue := rfl
@[simp] theorem completeOk_callerIn (r : Word64) : (completeOk r s).callerIn = s.callerIn := rfl

/-! ### completeErr -/

@[simp] theorem completeErr_cmdBase (e : ResultCode) : (completeErr e s).cmdBase = s.cmdBase := rfl
@[simp] theorem completeErr_ctlBase (e : ResultCode) : (completeErr e s).ctlBase = s.ctlBase := rfl
@[simp] theorem completeErr_pos (e : ResultCode) : (completeErr e s).pos = s.pos := rfl
@[simp] theorem completeErr_ustat (e : ResultCode) : (completeErr e s).ustat = ustatOf false s.inited s.faultFlag e.code := rfl
@[simp] theorem completeErr_req (e : ResultCode) : (completeErr e s).req = s.req := rfl
@[simp] theorem completeErr_arg0 (e : ResultCode) : (completeErr e s).arg0 = s.arg0 := rfl
@[simp] theorem completeErr_arg1 (e : ResultCode) : (completeErr e s).arg1 = s.arg1 := rfl
@[simp] theorem completeErr_result (e : ResultCode) : (completeErr e s).result = s.result := rfl
@[simp] theorem completeErr_tOp (e : ResultCode) : (completeErr e s).tOp = s.tOp := rfl
@[simp] theorem completeErr_tBuf (e : ResultCode) : (completeErr e s).tBuf = s.tBuf := rfl
@[simp] theorem completeErr_tL (e : ResultCode) : (completeErr e s).tL = s.tL := rfl
@[simp] theorem completeErr_tOff (e : ResultCode) : (completeErr e s).tOff = s.tOff := rfl
@[simp] theorem completeErr_tLba (e : ResultCode) : (completeErr e s).tLba = s.tLba := rfl
@[simp] theorem completeErr_tSect (e : ResultCode) : (completeErr e s).tSect = s.tSect := rfl
@[simp] theorem completeErr_tEnd (e : ResultCode) : (completeErr e s).tEnd = s.tEnd := rfl
@[simp] theorem completeErr_loopS (e : ResultCode) : (completeErr e s).loopS = s.loopS := rfl
@[simp] theorem completeErr_loopW (e : ResultCode) : (completeErr e s).loopW = s.loopW := rfl
@[simp] theorem completeErr_startSnap (e : ResultCode) : (completeErr e s).startSnap = s.startSnap := rfl
@[simp] theorem completeErr_endSnap (e : ResultCode) : (completeErr e s).endSnap = s.endSnap := rfl
@[simp] theorem completeErr_haveStart (e : ResultCode) : (completeErr e s).haveStart = s.haveStart := rfl
@[simp] theorem completeErr_haveEnd (e : ResultCode) : (completeErr e s).haveEnd = s.haveEnd := rfl
@[simp] theorem completeErr_snapshotFault (e : ResultCode) : (completeErr e s).snapshotFault = s.snapshotFault := rfl
@[simp] theorem completeErr_seq (e : ResultCode) : (completeErr e s).seq = .idle := rfl
@[simp] theorem completeErr_mem (e : ResultCode) : (completeErr e s).mem = s.mem := rfl
@[simp] theorem completeErr_device (e : ResultCode) : (completeErr e s).device = s.device := rfl
@[simp] theorem completeErr_trace (e : ResultCode) : (completeErr e s).trace = s.trace := rfl
@[simp] theorem completeErr_callerQueue (e : ResultCode) : (completeErr e s).callerQueue = s.callerQueue := rfl
@[simp] theorem completeErr_callerIn (e : ResultCode) : (completeErr e s).callerIn = s.callerIn := rfl

/-! ### setInited -/

@[simp] theorem setInited_cmdBase : (setInited s).cmdBase = s.cmdBase := rfl
@[simp] theorem setInited_ctlBase : (setInited s).ctlBase = s.ctlBase := rfl
@[simp] theorem setInited_pos : (setInited s).pos = s.pos := rfl
@[simp] theorem setInited_ustat : (setInited s).ustat = ustatOf s.busy true s.faultFlag s.err := rfl
@[simp] theorem setInited_req : (setInited s).req = s.req := rfl
@[simp] theorem setInited_arg0 : (setInited s).arg0 = s.arg0 := rfl
@[simp] theorem setInited_arg1 : (setInited s).arg1 = s.arg1 := rfl
@[simp] theorem setInited_result : (setInited s).result = s.result := rfl
@[simp] theorem setInited_tOp : (setInited s).tOp = s.tOp := rfl
@[simp] theorem setInited_tBuf : (setInited s).tBuf = s.tBuf := rfl
@[simp] theorem setInited_tL : (setInited s).tL = s.tL := rfl
@[simp] theorem setInited_tOff : (setInited s).tOff = s.tOff := rfl
@[simp] theorem setInited_tLba : (setInited s).tLba = s.tLba := rfl
@[simp] theorem setInited_tSect : (setInited s).tSect = s.tSect := rfl
@[simp] theorem setInited_tEnd : (setInited s).tEnd = s.tEnd := rfl
@[simp] theorem setInited_loopS : (setInited s).loopS = s.loopS := rfl
@[simp] theorem setInited_loopW : (setInited s).loopW = s.loopW := rfl
@[simp] theorem setInited_startSnap : (setInited s).startSnap = s.startSnap := rfl
@[simp] theorem setInited_endSnap : (setInited s).endSnap = s.endSnap := rfl
@[simp] theorem setInited_haveStart : (setInited s).haveStart = s.haveStart := rfl
@[simp] theorem setInited_haveEnd : (setInited s).haveEnd = s.haveEnd := rfl
@[simp] theorem setInited_snapshotFault : (setInited s).snapshotFault = s.snapshotFault := rfl
@[simp] theorem setInited_seq : (setInited s).seq = s.seq := rfl
@[simp] theorem setInited_mem : (setInited s).mem = s.mem := rfl
@[simp] theorem setInited_device : (setInited s).device = s.device := rfl
@[simp] theorem setInited_trace : (setInited s).trace = s.trace := rfl
@[simp] theorem setInited_callerQueue : (setInited s).callerQueue = s.callerQueue := rfl
@[simp] theorem setInited_callerIn : (setInited s).callerIn = s.callerIn := rfl

/-! ### accepted -/

@[simp] theorem accepted_cmdBase (i : Instr) : (accepted i s).cmdBase = s.cmdBase := rfl
@[simp] theorem accepted_ctlBase (i : Instr) : (accepted i s).ctlBase = s.ctlBase := rfl
@[simp] theorem accepted_pos (i : Instr) : (accepted i s).pos = s.pos := rfl
@[simp] theorem accepted_ustat (i : Instr) : (accepted i s).ustat = ustatOf true s.inited s.faultFlag s.err := rfl
@[simp] theorem accepted_req (i : Instr) : (accepted i s).req = encode i := rfl
@[simp] theorem accepted_arg0 (i : Instr) : (accepted i s).arg0 = s.arg0 := rfl
@[simp] theorem accepted_arg1 (i : Instr) : (accepted i s).arg1 = s.arg1 := rfl
@[simp] theorem accepted_result (i : Instr) : (accepted i s).result = s.result := rfl
@[simp] theorem accepted_tOp (i : Instr) : (accepted i s).tOp = s.tOp := rfl
@[simp] theorem accepted_tBuf (i : Instr) : (accepted i s).tBuf = s.tBuf := rfl
@[simp] theorem accepted_tL (i : Instr) : (accepted i s).tL = s.tL := rfl
@[simp] theorem accepted_tOff (i : Instr) : (accepted i s).tOff = s.tOff := rfl
@[simp] theorem accepted_tLba (i : Instr) : (accepted i s).tLba = s.tLba := rfl
@[simp] theorem accepted_tSect (i : Instr) : (accepted i s).tSect = s.tSect := rfl
@[simp] theorem accepted_tEnd (i : Instr) : (accepted i s).tEnd = s.tEnd := rfl
@[simp] theorem accepted_loopS (i : Instr) : (accepted i s).loopS = s.loopS := rfl
@[simp] theorem accepted_loopW (i : Instr) : (accepted i s).loopW = s.loopW := rfl
@[simp] theorem accepted_startSnap (i : Instr) : (accepted i s).startSnap = s.startSnap := rfl
@[simp] theorem accepted_endSnap (i : Instr) : (accepted i s).endSnap = s.endSnap := rfl
@[simp] theorem accepted_haveStart (i : Instr) : (accepted i s).haveStart = s.haveStart := rfl
@[simp] theorem accepted_haveEnd (i : Instr) : (accepted i s).haveEnd = s.haveEnd := rfl
@[simp] theorem accepted_snapshotFault (i : Instr) : (accepted i s).snapshotFault = s.snapshotFault := rfl
@[simp] theorem accepted_seq (i : Instr) : (accepted i s).seq = s.seq := rfl
@[simp] theorem accepted_mem (i : Instr) : (accepted i s).mem = s.mem := rfl
@[simp] theorem accepted_device (i : Instr) : (accepted i s).device = s.device := rfl
@[simp] theorem accepted_trace (i : Instr) : (accepted i s).trace = s.trace := rfl
@[simp] theorem accepted_callerQueue (i : Instr) : (accepted i s).callerQueue = s.callerQueue := rfl
@[simp] theorem accepted_callerIn (i : Instr) : (accepted i s).callerIn = s.callerIn := rfl

/-! ### latchTransfer -/

@[simp] theorem latchTransfer_cmdBase (op : TransferOp) : (latchTransfer op s).cmdBase = s.cmdBase := rfl
@[simp] theorem latchTransfer_ctlBase (op : TransferOp) : (latchTransfer op s).ctlBase = s.ctlBase := rfl
@[simp] theorem latchTransfer_pos (op : TransferOp) : (latchTransfer op s).pos = s.pos := rfl
@[simp] theorem latchTransfer_ustat (op : TransferOp) : (latchTransfer op s).ustat = s.ustat := rfl
@[simp] theorem latchTransfer_req (op : TransferOp) : (latchTransfer op s).req = s.req := rfl
@[simp] theorem latchTransfer_arg0 (op : TransferOp) : (latchTransfer op s).arg0 = s.arg0 := rfl
@[simp] theorem latchTransfer_arg1 (op : TransferOp) : (latchTransfer op s).arg1 = s.arg1 := rfl
@[simp] theorem latchTransfer_result (op : TransferOp) : (latchTransfer op s).result = s.result := rfl
@[simp] theorem latchTransfer_tOp (op : TransferOp) : (latchTransfer op s).tOp = op := rfl
@[simp] theorem latchTransfer_tBuf (op : TransferOp) : (latchTransfer op s).tBuf = s.arg0 := rfl
@[simp] theorem latchTransfer_tL (op : TransferOp) : (latchTransfer op s).tL = s.arg1 := rfl
@[simp] theorem latchTransfer_tOff (op : TransferOp) : (latchTransfer op s).tOff = BitVec.ofNat 9 (sectorOffset s.pos.toNat) := rfl
@[simp] theorem latchTransfer_tLba (op : TransferOp) : (latchTransfer op s).tLba = BitVec.ofNat 64 (sectorIndex s.pos.toNat) := rfl
@[simp] theorem latchTransfer_tSect (op : TransferOp) : (latchTransfer op s).tSect = BitVec.ofNat 16 (requiredSectors s.pos.toNat s.arg1.toNat) := rfl
@[simp] theorem latchTransfer_tEnd (op : TransferOp) : (latchTransfer op s).tEnd = s.pos + s.arg1 := rfl
@[simp] theorem latchTransfer_loopS (op : TransferOp) : (latchTransfer op s).loopS = s.loopS := rfl
@[simp] theorem latchTransfer_loopW (op : TransferOp) : (latchTransfer op s).loopW = s.loopW := rfl
@[simp] theorem latchTransfer_startSnap (op : TransferOp) : (latchTransfer op s).startSnap = s.startSnap := rfl
@[simp] theorem latchTransfer_endSnap (op : TransferOp) : (latchTransfer op s).endSnap = s.endSnap := rfl
@[simp] theorem latchTransfer_haveStart (op : TransferOp) : (latchTransfer op s).haveStart = s.haveStart := rfl
@[simp] theorem latchTransfer_haveEnd (op : TransferOp) : (latchTransfer op s).haveEnd = s.haveEnd := rfl
@[simp] theorem latchTransfer_snapshotFault (op : TransferOp) : (latchTransfer op s).snapshotFault = s.snapshotFault := rfl
@[simp] theorem latchTransfer_seq (op : TransferOp) : (latchTransfer op s).seq = s.seq := rfl
@[simp] theorem latchTransfer_mem (op : TransferOp) : (latchTransfer op s).mem = s.mem := rfl
@[simp] theorem latchTransfer_device (op : TransferOp) : (latchTransfer op s).device = s.device := rfl
@[simp] theorem latchTransfer_trace (op : TransferOp) : (latchTransfer op s).trace = s.trace := rfl
@[simp] theorem latchTransfer_callerQueue (op : TransferOp) : (latchTransfer op s).callerQueue = s.callerQueue := rfl
@[simp] theorem latchTransfer_callerIn (op : TransferOp) : (latchTransfer op s).callerIn = s.callerIn := rfl

/-! ### setPos -/

@[simp] theorem setPos_cmdBase (p : Word64) : (setPos p s).cmdBase = s.cmdBase := rfl
@[simp] theorem setPos_ctlBase (p : Word64) : (setPos p s).ctlBase = s.ctlBase := rfl
@[simp] theorem setPos_pos (p : Word64) : (setPos p s).pos = p := rfl
@[simp] theorem setPos_ustat (p : Word64) : (setPos p s).ustat = s.ustat := rfl
@[simp] theorem setPos_req (p : Word64) : (setPos p s).req = s.req := rfl
@[simp] theorem setPos_arg0 (p : Word64) : (setPos p s).arg0 = s.arg0 := rfl
@[simp] theorem setPos_arg1 (p : Word64) : (setPos p s).arg1 = s.arg1 := rfl
@[simp] theorem setPos_result (p : Word64) : (setPos p s).result = s.result := rfl
@[simp] theorem setPos_tOp (p : Word64) : (setPos p s).tOp = s.tOp := rfl
@[simp] theorem setPos_tBuf (p : Word64) : (setPos p s).tBuf = s.tBuf := rfl
@[simp] theorem setPos_tL (p : Word64) : (setPos p s).tL = s.tL := rfl
@[simp] theorem setPos_tOff (p : Word64) : (setPos p s).tOff = s.tOff := rfl
@[simp] theorem setPos_tLba (p : Word64) : (setPos p s).tLba = s.tLba := rfl
@[simp] theorem setPos_tSect (p : Word64) : (setPos p s).tSect = s.tSect := rfl
@[simp] theorem setPos_tEnd (p : Word64) : (setPos p s).tEnd = s.tEnd := rfl
@[simp] theorem setPos_loopS (p : Word64) : (setPos p s).loopS = s.loopS := rfl
@[simp] theorem setPos_loopW (p : Word64) : (setPos p s).loopW = s.loopW := rfl
@[simp] theorem setPos_startSnap (p : Word64) : (setPos p s).startSnap = s.startSnap := rfl
@[simp] theorem setPos_endSnap (p : Word64) : (setPos p s).endSnap = s.endSnap := rfl
@[simp] theorem setPos_haveStart (p : Word64) : (setPos p s).haveStart = s.haveStart := rfl
@[simp] theorem setPos_haveEnd (p : Word64) : (setPos p s).haveEnd = s.haveEnd := rfl
@[simp] theorem setPos_snapshotFault (p : Word64) : (setPos p s).snapshotFault = s.snapshotFault := rfl
@[simp] theorem setPos_seq (p : Word64) : (setPos p s).seq = s.seq := rfl
@[simp] theorem setPos_mem (p : Word64) : (setPos p s).mem = s.mem := rfl
@[simp] theorem setPos_device (p : Word64) : (setPos p s).device = s.device := rfl
@[simp] theorem setPos_trace (p : Word64) : (setPos p s).trace = s.trace := rfl
@[simp] theorem setPos_callerQueue (p : Word64) : (setPos p s).callerQueue = s.callerQueue := rfl
@[simp] theorem setPos_callerIn (p : Word64) : (setPos p s).callerIn = s.callerIn := rfl

/-! ### setMem -/

@[simp] theorem setMem_cmdBase (m : Memory) : (setMem m s).cmdBase = s.cmdBase := rfl
@[simp] theorem setMem_ctlBase (m : Memory) : (setMem m s).ctlBase = s.ctlBase := rfl
@[simp] theorem setMem_pos (m : Memory) : (setMem m s).pos = s.pos := rfl
@[simp] theorem setMem_ustat (m : Memory) : (setMem m s).ustat = s.ustat := rfl
@[simp] theorem setMem_req (m : Memory) : (setMem m s).req = s.req := rfl
@[simp] theorem setMem_arg0 (m : Memory) : (setMem m s).arg0 = s.arg0 := rfl
@[simp] theorem setMem_arg1 (m : Memory) : (setMem m s).arg1 = s.arg1 := rfl
@[simp] theorem setMem_result (m : Memory) : (setMem m s).result = s.result := rfl
@[simp] theorem setMem_tOp (m : Memory) : (setMem m s).tOp = s.tOp := rfl
@[simp] theorem setMem_tBuf (m : Memory) : (setMem m s).tBuf = s.tBuf := rfl
@[simp] theorem setMem_tL (m : Memory) : (setMem m s).tL = s.tL := rfl
@[simp] theorem setMem_tOff (m : Memory) : (setMem m s).tOff = s.tOff := rfl
@[simp] theorem setMem_tLba (m : Memory) : (setMem m s).tLba = s.tLba := rfl
@[simp] theorem setMem_tSect (m : Memory) : (setMem m s).tSect = s.tSect := rfl
@[simp] theorem setMem_tEnd (m : Memory) : (setMem m s).tEnd = s.tEnd := rfl
@[simp] theorem setMem_loopS (m : Memory) : (setMem m s).loopS = s.loopS := rfl
@[simp] theorem setMem_loopW (m : Memory) : (setMem m s).loopW = s.loopW := rfl
@[simp] theorem setMem_startSnap (m : Memory) : (setMem m s).startSnap = s.startSnap := rfl
@[simp] theorem setMem_endSnap (m : Memory) : (setMem m s).endSnap = s.endSnap := rfl
@[simp] theorem setMem_haveStart (m : Memory) : (setMem m s).haveStart = s.haveStart := rfl
@[simp] theorem setMem_haveEnd (m : Memory) : (setMem m s).haveEnd = s.haveEnd := rfl
@[simp] theorem setMem_snapshotFault (m : Memory) : (setMem m s).snapshotFault = s.snapshotFault := rfl
@[simp] theorem setMem_seq (m : Memory) : (setMem m s).seq = s.seq := rfl
@[simp] theorem setMem_mem (m : Memory) : (setMem m s).mem = m := rfl
@[simp] theorem setMem_device (m : Memory) : (setMem m s).device = s.device := rfl
@[simp] theorem setMem_trace (m : Memory) : (setMem m s).trace = s.trace := rfl
@[simp] theorem setMem_callerQueue (m : Memory) : (setMem m s).callerQueue = s.callerQueue := rfl
@[simp] theorem setMem_callerIn (m : Memory) : (setMem m s).callerIn = s.callerIn := rfl

/-! ### setBases -/

@[simp] theorem setBases_cmdBase (cmd ctl : Word16) : (setBases cmd ctl s).cmdBase = cmd := rfl
@[simp] theorem setBases_ctlBase (cmd ctl : Word16) : (setBases cmd ctl s).ctlBase = ctl := rfl
@[simp] theorem setBases_pos (cmd ctl : Word16) : (setBases cmd ctl s).pos = s.pos := rfl
@[simp] theorem setBases_ustat (cmd ctl : Word16) : (setBases cmd ctl s).ustat = s.ustat := rfl
@[simp] theorem setBases_req (cmd ctl : Word16) : (setBases cmd ctl s).req = s.req := rfl
@[simp] theorem setBases_arg0 (cmd ctl : Word16) : (setBases cmd ctl s).arg0 = s.arg0 := rfl
@[simp] theorem setBases_arg1 (cmd ctl : Word16) : (setBases cmd ctl s).arg1 = s.arg1 := rfl
@[simp] theorem setBases_result (cmd ctl : Word16) : (setBases cmd ctl s).result = s.result := rfl
@[simp] theorem setBases_tOp (cmd ctl : Word16) : (setBases cmd ctl s).tOp = s.tOp := rfl
@[simp] theorem setBases_tBuf (cmd ctl : Word16) : (setBases cmd ctl s).tBuf = s.tBuf := rfl
@[simp] theorem setBases_tL (cmd ctl : Word16) : (setBases cmd ctl s).tL = s.tL := rfl
@[simp] theorem setBases_tOff (cmd ctl : Word16) : (setBases cmd ctl s).tOff = s.tOff := rfl
@[simp] theorem setBases_tLba (cmd ctl : Word16) : (setBases cmd ctl s).tLba = s.tLba := rfl
@[simp] theorem setBases_tSect (cmd ctl : Word16) : (setBases cmd ctl s).tSect = s.tSect := rfl
@[simp] theorem setBases_tEnd (cmd ctl : Word16) : (setBases cmd ctl s).tEnd = s.tEnd := rfl
@[simp] theorem setBases_loopS (cmd ctl : Word16) : (setBases cmd ctl s).loopS = s.loopS := rfl
@[simp] theorem setBases_loopW (cmd ctl : Word16) : (setBases cmd ctl s).loopW = s.loopW := rfl
@[simp] theorem setBases_startSnap (cmd ctl : Word16) : (setBases cmd ctl s).startSnap = s.startSnap := rfl
@[simp] theorem setBases_endSnap (cmd ctl : Word16) : (setBases cmd ctl s).endSnap = s.endSnap := rfl
@[simp] theorem setBases_haveStart (cmd ctl : Word16) : (setBases cmd ctl s).haveStart = s.haveStart := rfl
@[simp] theorem setBases_haveEnd (cmd ctl : Word16) : (setBases cmd ctl s).haveEnd = s.haveEnd := rfl
@[simp] theorem setBases_snapshotFault (cmd ctl : Word16) : (setBases cmd ctl s).snapshotFault = s.snapshotFault := rfl
@[simp] theorem setBases_seq (cmd ctl : Word16) : (setBases cmd ctl s).seq = s.seq := rfl
@[simp] theorem setBases_mem (cmd ctl : Word16) : (setBases cmd ctl s).mem = s.mem := rfl
@[simp] theorem setBases_device (cmd ctl : Word16) : (setBases cmd ctl s).device = s.device := rfl
@[simp] theorem setBases_trace (cmd ctl : Word16) : (setBases cmd ctl s).trace = s.trace := rfl
@[simp] theorem setBases_callerQueue (cmd ctl : Word16) : (setBases cmd ctl s).callerQueue = s.callerQueue := rfl
@[simp] theorem setBases_callerIn (cmd ctl : Word16) : (setBases cmd ctl s).callerIn = s.callerIn := rfl

/-! ### zeroLoops -/

@[simp] theorem zeroLoops_cmdBase : (zeroLoops s).cmdBase = s.cmdBase := rfl
@[simp] theorem zeroLoops_ctlBase : (zeroLoops s).ctlBase = s.ctlBase := rfl
@[simp] theorem zeroLoops_pos : (zeroLoops s).pos = s.pos := rfl
@[simp] theorem zeroLoops_ustat : (zeroLoops s).ustat = s.ustat := rfl
@[simp] theorem zeroLoops_req : (zeroLoops s).req = s.req := rfl
@[simp] theorem zeroLoops_arg0 : (zeroLoops s).arg0 = s.arg0 := rfl
@[simp] theorem zeroLoops_arg1 : (zeroLoops s).arg1 = s.arg1 := rfl
@[simp] theorem zeroLoops_result : (zeroLoops s).result = s.result := rfl
@[simp] theorem zeroLoops_tOp : (zeroLoops s).tOp = s.tOp := rfl
@[simp] theorem zeroLoops_tBuf : (zeroLoops s).tBuf = s.tBuf := rfl
@[simp] theorem zeroLoops_tL : (zeroLoops s).tL = s.tL := rfl
@[simp] theorem zeroLoops_tOff : (zeroLoops s).tOff = s.tOff := rfl
@[simp] theorem zeroLoops_tLba : (zeroLoops s).tLba = s.tLba := rfl
@[simp] theorem zeroLoops_tSect : (zeroLoops s).tSect = s.tSect := rfl
@[simp] theorem zeroLoops_tEnd : (zeroLoops s).tEnd = s.tEnd := rfl
@[simp] theorem zeroLoops_loopS : (zeroLoops s).loopS = 0#16 := rfl
@[simp] theorem zeroLoops_loopW : (zeroLoops s).loopW = 0#9 := rfl
@[simp] theorem zeroLoops_startSnap : (zeroLoops s).startSnap = s.startSnap := rfl
@[simp] theorem zeroLoops_endSnap : (zeroLoops s).endSnap = s.endSnap := rfl
@[simp] theorem zeroLoops_haveStart : (zeroLoops s).haveStart = s.haveStart := rfl
@[simp] theorem zeroLoops_haveEnd : (zeroLoops s).haveEnd = s.haveEnd := rfl
@[simp] theorem zeroLoops_snapshotFault : (zeroLoops s).snapshotFault = s.snapshotFault := rfl
@[simp] theorem zeroLoops_seq : (zeroLoops s).seq = s.seq := rfl
@[simp] theorem zeroLoops_mem : (zeroLoops s).mem = s.mem := rfl
@[simp] theorem zeroLoops_device : (zeroLoops s).device = s.device := rfl
@[simp] theorem zeroLoops_trace : (zeroLoops s).trace = s.trace := rfl
@[simp] theorem zeroLoops_callerQueue : (zeroLoops s).callerQueue = s.callerQueue := rfl
@[simp] theorem zeroLoops_callerIn : (zeroLoops s).callerIn = s.callerIn := rfl

/-! ### bumpWord -/

@[simp] theorem bumpWord_cmdBase : (bumpWord s).cmdBase = s.cmdBase := rfl
@[simp] theorem bumpWord_ctlBase : (bumpWord s).ctlBase = s.ctlBase := rfl
@[simp] theorem bumpWord_pos : (bumpWord s).pos = s.pos := rfl
@[simp] theorem bumpWord_ustat : (bumpWord s).ustat = s.ustat := rfl
@[simp] theorem bumpWord_req : (bumpWord s).req = s.req := rfl
@[simp] theorem bumpWord_arg0 : (bumpWord s).arg0 = s.arg0 := rfl
@[simp] theorem bumpWord_arg1 : (bumpWord s).arg1 = s.arg1 := rfl
@[simp] theorem bumpWord_result : (bumpWord s).result = s.result := rfl
@[simp] theorem bumpWord_tOp : (bumpWord s).tOp = s.tOp := rfl
@[simp] theorem bumpWord_tBuf : (bumpWord s).tBuf = s.tBuf := rfl
@[simp] theorem bumpWord_tL : (bumpWord s).tL = s.tL := rfl
@[simp] theorem bumpWord_tOff : (bumpWord s).tOff = s.tOff := rfl
@[simp] theorem bumpWord_tLba : (bumpWord s).tLba = s.tLba := rfl
@[simp] theorem bumpWord_tSect : (bumpWord s).tSect = s.tSect := rfl
@[simp] theorem bumpWord_tEnd : (bumpWord s).tEnd = s.tEnd := rfl
@[simp] theorem bumpWord_loopS : (bumpWord s).loopS = s.loopS := rfl
@[simp] theorem bumpWord_loopW : (bumpWord s).loopW = s.loopW + 1#9 := rfl
@[simp] theorem bumpWord_startSnap : (bumpWord s).startSnap = s.startSnap := rfl
@[simp] theorem bumpWord_endSnap : (bumpWord s).endSnap = s.endSnap := rfl
@[simp] theorem bumpWord_haveStart : (bumpWord s).haveStart = s.haveStart := rfl
@[simp] theorem bumpWord_haveEnd : (bumpWord s).haveEnd = s.haveEnd := rfl
@[simp] theorem bumpWord_snapshotFault : (bumpWord s).snapshotFault = s.snapshotFault := rfl
@[simp] theorem bumpWord_seq : (bumpWord s).seq = s.seq := rfl
@[simp] theorem bumpWord_mem : (bumpWord s).mem = s.mem := rfl
@[simp] theorem bumpWord_device : (bumpWord s).device = s.device := rfl
@[simp] theorem bumpWord_trace : (bumpWord s).trace = s.trace := rfl
@[simp] theorem bumpWord_callerQueue : (bumpWord s).callerQueue = s.callerQueue := rfl
@[simp] theorem bumpWord_callerIn : (bumpWord s).callerIn = s.callerIn := rfl

/-! ### bumpSector -/

@[simp] theorem bumpSector_cmdBase : (bumpSector s).cmdBase = s.cmdBase := rfl
@[simp] theorem bumpSector_ctlBase : (bumpSector s).ctlBase = s.ctlBase := rfl
@[simp] theorem bumpSector_pos : (bumpSector s).pos = s.pos := rfl
@[simp] theorem bumpSector_ustat : (bumpSector s).ustat = s.ustat := rfl
@[simp] theorem bumpSector_req : (bumpSector s).req = s.req := rfl
@[simp] theorem bumpSector_arg0 : (bumpSector s).arg0 = s.arg0 := rfl
@[simp] theorem bumpSector_arg1 : (bumpSector s).arg1 = s.arg1 := rfl
@[simp] theorem bumpSector_result : (bumpSector s).result = s.result := rfl
@[simp] theorem bumpSector_tOp : (bumpSector s).tOp = s.tOp := rfl
@[simp] theorem bumpSector_tBuf : (bumpSector s).tBuf = s.tBuf := rfl
@[simp] theorem bumpSector_tL : (bumpSector s).tL = s.tL := rfl
@[simp] theorem bumpSector_tOff : (bumpSector s).tOff = s.tOff := rfl
@[simp] theorem bumpSector_tLba : (bumpSector s).tLba = s.tLba := rfl
@[simp] theorem bumpSector_tSect : (bumpSector s).tSect = s.tSect := rfl
@[simp] theorem bumpSector_tEnd : (bumpSector s).tEnd = s.tEnd := rfl
@[simp] theorem bumpSector_loopS : (bumpSector s).loopS = s.loopS + 1#16 := rfl
@[simp] theorem bumpSector_loopW : (bumpSector s).loopW = 0#9 := rfl
@[simp] theorem bumpSector_startSnap : (bumpSector s).startSnap = s.startSnap := rfl
@[simp] theorem bumpSector_endSnap : (bumpSector s).endSnap = s.endSnap := rfl
@[simp] theorem bumpSector_haveStart : (bumpSector s).haveStart = s.haveStart := rfl
@[simp] theorem bumpSector_haveEnd : (bumpSector s).haveEnd = s.haveEnd := rfl
@[simp] theorem bumpSector_snapshotFault : (bumpSector s).snapshotFault = s.snapshotFault := rfl
@[simp] theorem bumpSector_seq : (bumpSector s).seq = s.seq := rfl
@[simp] theorem bumpSector_mem : (bumpSector s).mem = s.mem := rfl
@[simp] theorem bumpSector_device : (bumpSector s).device = s.device := rfl
@[simp] theorem bumpSector_trace : (bumpSector s).trace = s.trace := rfl
@[simp] theorem bumpSector_callerQueue : (bumpSector s).callerQueue = s.callerQueue := rfl
@[simp] theorem bumpSector_callerIn : (bumpSector s).callerIn = s.callerIn := rfl

/-! ### markStart -/

@[simp] theorem markStart_cmdBase : (markStart s).cmdBase = s.cmdBase := rfl
@[simp] theorem markStart_ctlBase : (markStart s).ctlBase = s.ctlBase := rfl
@[simp] theorem markStart_pos : (markStart s).pos = s.pos := rfl
@[simp] theorem markStart_ustat : (markStart s).ustat = s.ustat := rfl
@[simp] theorem markStart_req : (markStart s).req = s.req := rfl
@[simp] theorem markStart_arg0 : (markStart s).arg0 = s.arg0 := rfl
@[simp] theorem markStart_arg1 : (markStart s).arg1 = s.arg1 := rfl
@[simp] theorem markStart_result : (markStart s).result = s.result := rfl
@[simp] theorem markStart_tOp : (markStart s).tOp = s.tOp := rfl
@[simp] theorem markStart_tBuf : (markStart s).tBuf = s.tBuf := rfl
@[simp] theorem markStart_tL : (markStart s).tL = s.tL := rfl
@[simp] theorem markStart_tOff : (markStart s).tOff = s.tOff := rfl
@[simp] theorem markStart_tLba : (markStart s).tLba = s.tLba := rfl
@[simp] theorem markStart_tSect : (markStart s).tSect = s.tSect := rfl
@[simp] theorem markStart_tEnd : (markStart s).tEnd = s.tEnd := rfl
@[simp] theorem markStart_loopS : (markStart s).loopS = s.loopS := rfl
@[simp] theorem markStart_loopW : (markStart s).loopW = s.loopW := rfl
@[simp] theorem markStart_startSnap : (markStart s).startSnap = s.startSnap := rfl
@[simp] theorem markStart_endSnap : (markStart s).endSnap = s.endSnap := rfl
@[simp] theorem markStart_haveStart : (markStart s).haveStart = true := rfl
@[simp] theorem markStart_haveEnd : (markStart s).haveEnd = s.haveEnd := rfl
@[simp] theorem markStart_snapshotFault : (markStart s).snapshotFault = s.snapshotFault := rfl
@[simp] theorem markStart_seq : (markStart s).seq = s.seq := rfl
@[simp] theorem markStart_mem : (markStart s).mem = s.mem := rfl
@[simp] theorem markStart_device : (markStart s).device = s.device := rfl
@[simp] theorem markStart_trace : (markStart s).trace = s.trace := rfl
@[simp] theorem markStart_callerQueue : (markStart s).callerQueue = s.callerQueue := rfl
@[simp] theorem markStart_callerIn : (markStart s).callerIn = s.callerIn := rfl

/-! ### markEnd -/

@[simp] theorem markEnd_cmdBase : (markEnd s).cmdBase = s.cmdBase := rfl
@[simp] theorem markEnd_ctlBase : (markEnd s).ctlBase = s.ctlBase := rfl
@[simp] theorem markEnd_pos : (markEnd s).pos = s.pos := rfl
@[simp] theorem markEnd_ustat : (markEnd s).ustat = s.ustat := rfl
@[simp] theorem markEnd_req : (markEnd s).req = s.req := rfl
@[simp] theorem markEnd_arg0 : (markEnd s).arg0 = s.arg0 := rfl
@[simp] theorem markEnd_arg1 : (markEnd s).arg1 = s.arg1 := rfl
@[simp] theorem markEnd_result : (markEnd s).result = s.result := rfl
@[simp] theorem markEnd_tOp : (markEnd s).tOp = s.tOp := rfl
@[simp] theorem markEnd_tBuf : (markEnd s).tBuf = s.tBuf := rfl
@[simp] theorem markEnd_tL : (markEnd s).tL = s.tL := rfl
@[simp] theorem markEnd_tOff : (markEnd s).tOff = s.tOff := rfl
@[simp] theorem markEnd_tLba : (markEnd s).tLba = s.tLba := rfl
@[simp] theorem markEnd_tSect : (markEnd s).tSect = s.tSect := rfl
@[simp] theorem markEnd_tEnd : (markEnd s).tEnd = s.tEnd := rfl
@[simp] theorem markEnd_loopS : (markEnd s).loopS = s.loopS := rfl
@[simp] theorem markEnd_loopW : (markEnd s).loopW = s.loopW := rfl
@[simp] theorem markEnd_startSnap : (markEnd s).startSnap = s.startSnap := rfl
@[simp] theorem markEnd_endSnap : (markEnd s).endSnap = s.endSnap := rfl
@[simp] theorem markEnd_haveStart : (markEnd s).haveStart = s.haveStart := rfl
@[simp] theorem markEnd_haveEnd : (markEnd s).haveEnd = true := rfl
@[simp] theorem markEnd_snapshotFault : (markEnd s).snapshotFault = s.snapshotFault := rfl
@[simp] theorem markEnd_seq : (markEnd s).seq = s.seq := rfl
@[simp] theorem markEnd_mem : (markEnd s).mem = s.mem := rfl
@[simp] theorem markEnd_device : (markEnd s).device = s.device := rfl
@[simp] theorem markEnd_trace : (markEnd s).trace = s.trace := rfl
@[simp] theorem markEnd_callerQueue : (markEnd s).callerQueue = s.callerQueue := rfl
@[simp] theorem markEnd_callerIn : (markEnd s).callerIn = s.callerIn := rfl

/-! ### setQueue -/

@[simp] theorem setQueue_cmdBase (q : List CallerMove) : (setQueue q s).cmdBase = s.cmdBase := rfl
@[simp] theorem setQueue_ctlBase (q : List CallerMove) : (setQueue q s).ctlBase = s.ctlBase := rfl
@[simp] theorem setQueue_pos (q : List CallerMove) : (setQueue q s).pos = s.pos := rfl
@[simp] theorem setQueue_ustat (q : List CallerMove) : (setQueue q s).ustat = s.ustat := rfl
@[simp] theorem setQueue_req (q : List CallerMove) : (setQueue q s).req = s.req := rfl
@[simp] theorem setQueue_arg0 (q : List CallerMove) : (setQueue q s).arg0 = s.arg0 := rfl
@[simp] theorem setQueue_arg1 (q : List CallerMove) : (setQueue q s).arg1 = s.arg1 := rfl
@[simp] theorem setQueue_result (q : List CallerMove) : (setQueue q s).result = s.result := rfl
@[simp] theorem setQueue_tOp (q : List CallerMove) : (setQueue q s).tOp = s.tOp := rfl
@[simp] theorem setQueue_tBuf (q : List CallerMove) : (setQueue q s).tBuf = s.tBuf := rfl
@[simp] theorem setQueue_tL (q : List CallerMove) : (setQueue q s).tL = s.tL := rfl
@[simp] theorem setQueue_tOff (q : List CallerMove) : (setQueue q s).tOff = s.tOff := rfl
@[simp] theorem setQueue_tLba (q : List CallerMove) : (setQueue q s).tLba = s.tLba := rfl
@[simp] theorem setQueue_tSect (q : List CallerMove) : (setQueue q s).tSect = s.tSect := rfl
@[simp] theorem setQueue_tEnd (q : List CallerMove) : (setQueue q s).tEnd = s.tEnd := rfl
@[simp] theorem setQueue_loopS (q : List CallerMove) : (setQueue q s).loopS = s.loopS := rfl
@[simp] theorem setQueue_loopW (q : List CallerMove) : (setQueue q s).loopW = s.loopW := rfl
@[simp] theorem setQueue_startSnap (q : List CallerMove) : (setQueue q s).startSnap = s.startSnap := rfl
@[simp] theorem setQueue_endSnap (q : List CallerMove) : (setQueue q s).endSnap = s.endSnap := rfl
@[simp] theorem setQueue_haveStart (q : List CallerMove) : (setQueue q s).haveStart = s.haveStart := rfl
@[simp] theorem setQueue_haveEnd (q : List CallerMove) : (setQueue q s).haveEnd = s.haveEnd := rfl
@[simp] theorem setQueue_snapshotFault (q : List CallerMove) : (setQueue q s).snapshotFault = s.snapshotFault := rfl
@[simp] theorem setQueue_seq (q : List CallerMove) : (setQueue q s).seq = s.seq := rfl
@[simp] theorem setQueue_mem (q : List CallerMove) : (setQueue q s).mem = s.mem := rfl
@[simp] theorem setQueue_device (q : List CallerMove) : (setQueue q s).device = s.device := rfl
@[simp] theorem setQueue_trace (q : List CallerMove) : (setQueue q s).trace = s.trace := rfl
@[simp] theorem setQueue_callerQueue (q : List CallerMove) : (setQueue q s).callerQueue = q := rfl
@[simp] theorem setQueue_callerIn (q : List CallerMove) : (setQueue q s).callerIn = s.callerIn := rfl

/-! ### setCallerIn -/

@[simp] theorem setCallerIn_cmdBase (v : Word64) : (setCallerIn v s).cmdBase = s.cmdBase := rfl
@[simp] theorem setCallerIn_ctlBase (v : Word64) : (setCallerIn v s).ctlBase = s.ctlBase := rfl
@[simp] theorem setCallerIn_pos (v : Word64) : (setCallerIn v s).pos = s.pos := rfl
@[simp] theorem setCallerIn_ustat (v : Word64) : (setCallerIn v s).ustat = s.ustat := rfl
@[simp] theorem setCallerIn_req (v : Word64) : (setCallerIn v s).req = s.req := rfl
@[simp] theorem setCallerIn_arg0 (v : Word64) : (setCallerIn v s).arg0 = s.arg0 := rfl
@[simp] theorem setCallerIn_arg1 (v : Word64) : (setCallerIn v s).arg1 = s.arg1 := rfl
@[simp] theorem setCallerIn_result (v : Word64) : (setCallerIn v s).result = s.result := rfl
@[simp] theorem setCallerIn_tOp (v : Word64) : (setCallerIn v s).tOp = s.tOp := rfl
@[simp] theorem setCallerIn_tBuf (v : Word64) : (setCallerIn v s).tBuf = s.tBuf := rfl
@[simp] theorem setCallerIn_tL (v : Word64) : (setCallerIn v s).tL = s.tL := rfl
@[simp] theorem setCallerIn_tOff (v : Word64) : (setCallerIn v s).tOff = s.tOff := rfl
@[simp] theorem setCallerIn_tLba (v : Word64) : (setCallerIn v s).tLba = s.tLba := rfl
@[simp] theorem setCallerIn_tSect (v : Word64) : (setCallerIn v s).tSect = s.tSect := rfl
@[simp] theorem setCallerIn_tEnd (v : Word64) : (setCallerIn v s).tEnd = s.tEnd := rfl
@[simp] theorem setCallerIn_loopS (v : Word64) : (setCallerIn v s).loopS = s.loopS := rfl
@[simp] theorem setCallerIn_loopW (v : Word64) : (setCallerIn v s).loopW = s.loopW := rfl
@[simp] theorem setCallerIn_startSnap (v : Word64) : (setCallerIn v s).startSnap = s.startSnap := rfl
@[simp] theorem setCallerIn_endSnap (v : Word64) : (setCallerIn v s).endSnap = s.endSnap := rfl
@[simp] theorem setCallerIn_haveStart (v : Word64) : (setCallerIn v s).haveStart = s.haveStart := rfl
@[simp] theorem setCallerIn_haveEnd (v : Word64) : (setCallerIn v s).haveEnd = s.haveEnd := rfl
@[simp] theorem setCallerIn_snapshotFault (v : Word64) : (setCallerIn v s).snapshotFault = s.snapshotFault := rfl
@[simp] theorem setCallerIn_seq (v : Word64) : (setCallerIn v s).seq = s.seq := rfl
@[simp] theorem setCallerIn_mem (v : Word64) : (setCallerIn v s).mem = s.mem := rfl
@[simp] theorem setCallerIn_device (v : Word64) : (setCallerIn v s).device = s.device := rfl
@[simp] theorem setCallerIn_trace (v : Word64) : (setCallerIn v s).trace = s.trace := rfl
@[simp] theorem setCallerIn_callerQueue (v : Word64) : (setCallerIn v s).callerQueue = s.callerQueue := rfl
@[simp] theorem setCallerIn_callerIn (v : Word64) : (setCallerIn v s).callerIn = v := rfl

/-! ### setArg0 -/

@[simp] theorem setArg0_cmdBase (v : Word64) : (setArg0 v s).cmdBase = s.cmdBase := rfl
@[simp] theorem setArg0_ctlBase (v : Word64) : (setArg0 v s).ctlBase = s.ctlBase := rfl
@[simp] theorem setArg0_pos (v : Word64) : (setArg0 v s).pos = s.pos := rfl
@[simp] theorem setArg0_ustat (v : Word64) : (setArg0 v s).ustat = s.ustat := rfl
@[simp] theorem setArg0_req (v : Word64) : (setArg0 v s).req = s.req := rfl
@[simp] theorem setArg0_arg0 (v : Word64) : (setArg0 v s).arg0 = v := rfl
@[simp] theorem setArg0_arg1 (v : Word64) : (setArg0 v s).arg1 = s.arg1 := rfl
@[simp] theorem setArg0_result (v : Word64) : (setArg0 v s).result = s.result := rfl
@[simp] theorem setArg0_tOp (v : Word64) : (setArg0 v s).tOp = s.tOp := rfl
@[simp] theorem setArg0_tBuf (v : Word64) : (setArg0 v s).tBuf = s.tBuf := rfl
@[simp] theorem setArg0_tL (v : Word64) : (setArg0 v s).tL = s.tL := rfl
@[simp] theorem setArg0_tOff (v : Word64) : (setArg0 v s).tOff = s.tOff := rfl
@[simp] theorem setArg0_tLba (v : Word64) : (setArg0 v s).tLba = s.tLba := rfl
@[simp] theorem setArg0_tSect (v : Word64) : (setArg0 v s).tSect = s.tSect := rfl
@[simp] theorem setArg0_tEnd (v : Word64) : (setArg0 v s).tEnd = s.tEnd := rfl
@[simp] theorem setArg0_loopS (v : Word64) : (setArg0 v s).loopS = s.loopS := rfl
@[simp] theorem setArg0_loopW (v : Word64) : (setArg0 v s).loopW = s.loopW := rfl
@[simp] theorem setArg0_startSnap (v : Word64) : (setArg0 v s).startSnap = s.startSnap := rfl
@[simp] theorem setArg0_endSnap (v : Word64) : (setArg0 v s).endSnap = s.endSnap := rfl
@[simp] theorem setArg0_haveStart (v : Word64) : (setArg0 v s).haveStart = s.haveStart := rfl
@[simp] theorem setArg0_haveEnd (v : Word64) : (setArg0 v s).haveEnd = s.haveEnd := rfl
@[simp] theorem setArg0_snapshotFault (v : Word64) : (setArg0 v s).snapshotFault = s.snapshotFault := rfl
@[simp] theorem setArg0_seq (v : Word64) : (setArg0 v s).seq = s.seq := rfl
@[simp] theorem setArg0_mem (v : Word64) : (setArg0 v s).mem = s.mem := rfl
@[simp] theorem setArg0_device (v : Word64) : (setArg0 v s).device = s.device := rfl
@[simp] theorem setArg0_trace (v : Word64) : (setArg0 v s).trace = s.trace := rfl
@[simp] theorem setArg0_callerQueue (v : Word64) : (setArg0 v s).callerQueue = s.callerQueue := rfl
@[simp] theorem setArg0_callerIn (v : Word64) : (setArg0 v s).callerIn = s.callerIn := rfl

/-! ### setArg1 -/

@[simp] theorem setArg1_cmdBase (v : Word64) : (setArg1 v s).cmdBase = s.cmdBase := rfl
@[simp] theorem setArg1_ctlBase (v : Word64) : (setArg1 v s).ctlBase = s.ctlBase := rfl
@[simp] theorem setArg1_pos (v : Word64) : (setArg1 v s).pos = s.pos := rfl
@[simp] theorem setArg1_ustat (v : Word64) : (setArg1 v s).ustat = s.ustat := rfl
@[simp] theorem setArg1_req (v : Word64) : (setArg1 v s).req = s.req := rfl
@[simp] theorem setArg1_arg0 (v : Word64) : (setArg1 v s).arg0 = s.arg0 := rfl
@[simp] theorem setArg1_arg1 (v : Word64) : (setArg1 v s).arg1 = v := rfl
@[simp] theorem setArg1_result (v : Word64) : (setArg1 v s).result = s.result := rfl
@[simp] theorem setArg1_tOp (v : Word64) : (setArg1 v s).tOp = s.tOp := rfl
@[simp] theorem setArg1_tBuf (v : Word64) : (setArg1 v s).tBuf = s.tBuf := rfl
@[simp] theorem setArg1_tL (v : Word64) : (setArg1 v s).tL = s.tL := rfl
@[simp] theorem setArg1_tOff (v : Word64) : (setArg1 v s).tOff = s.tOff := rfl
@[simp] theorem setArg1_tLba (v : Word64) : (setArg1 v s).tLba = s.tLba := rfl
@[simp] theorem setArg1_tSect (v : Word64) : (setArg1 v s).tSect = s.tSect := rfl
@[simp] theorem setArg1_tEnd (v : Word64) : (setArg1 v s).tEnd = s.tEnd := rfl
@[simp] theorem setArg1_loopS (v : Word64) : (setArg1 v s).loopS = s.loopS := rfl
@[simp] theorem setArg1_loopW (v : Word64) : (setArg1 v s).loopW = s.loopW := rfl
@[simp] theorem setArg1_startSnap (v : Word64) : (setArg1 v s).startSnap = s.startSnap := rfl
@[simp] theorem setArg1_endSnap (v : Word64) : (setArg1 v s).endSnap = s.endSnap := rfl
@[simp] theorem setArg1_haveStart (v : Word64) : (setArg1 v s).haveStart = s.haveStart := rfl
@[simp] theorem setArg1_haveEnd (v : Word64) : (setArg1 v s).haveEnd = s.haveEnd := rfl
@[simp] theorem setArg1_snapshotFault (v : Word64) : (setArg1 v s).snapshotFault = s.snapshotFault := rfl
@[simp] theorem setArg1_seq (v : Word64) : (setArg1 v s).seq = s.seq := rfl
@[simp] theorem setArg1_mem (v : Word64) : (setArg1 v s).mem = s.mem := rfl
@[simp] theorem setArg1_device (v : Word64) : (setArg1 v s).device = s.device := rfl
@[simp] theorem setArg1_trace (v : Word64) : (setArg1 v s).trace = s.trace := rfl
@[simp] theorem setArg1_callerQueue (v : Word64) : (setArg1 v s).callerQueue = s.callerQueue := rfl
@[simp] theorem setArg1_callerIn (v : Word64) : (setArg1 v s).callerIn = s.callerIn := rfl

/-! ### clearSnaps -/

@[simp] theorem clearSnaps_cmdBase : (clearSnaps s).cmdBase = s.cmdBase := rfl
@[simp] theorem clearSnaps_ctlBase : (clearSnaps s).ctlBase = s.ctlBase := rfl
@[simp] theorem clearSnaps_pos : (clearSnaps s).pos = s.pos := rfl
@[simp] theorem clearSnaps_ustat : (clearSnaps s).ustat = s.ustat := rfl
@[simp] theorem clearSnaps_req : (clearSnaps s).req = s.req := rfl
@[simp] theorem clearSnaps_arg0 : (clearSnaps s).arg0 = s.arg0 := rfl
@[simp] theorem clearSnaps_arg1 : (clearSnaps s).arg1 = s.arg1 := rfl
@[simp] theorem clearSnaps_result : (clearSnaps s).result = s.result := rfl
@[simp] theorem clearSnaps_tOp : (clearSnaps s).tOp = s.tOp := rfl
@[simp] theorem clearSnaps_tBuf : (clearSnaps s).tBuf = s.tBuf := rfl
@[simp] theorem clearSnaps_tL : (clearSnaps s).tL = s.tL := rfl
@[simp] theorem clearSnaps_tOff : (clearSnaps s).tOff = s.tOff := rfl
@[simp] theorem clearSnaps_tLba : (clearSnaps s).tLba = s.tLba := rfl
@[simp] theorem clearSnaps_tSect : (clearSnaps s).tSect = s.tSect := rfl
@[simp] theorem clearSnaps_tEnd : (clearSnaps s).tEnd = s.tEnd := rfl
@[simp] theorem clearSnaps_loopS : (clearSnaps s).loopS = s.loopS := rfl
@[simp] theorem clearSnaps_loopW : (clearSnaps s).loopW = s.loopW := rfl
@[simp] theorem clearSnaps_startSnap : (clearSnaps s).startSnap = s.startSnap := rfl
@[simp] theorem clearSnaps_endSnap : (clearSnaps s).endSnap = s.endSnap := rfl
@[simp] theorem clearSnaps_haveStart : (clearSnaps s).haveStart = false := rfl
@[simp] theorem clearSnaps_haveEnd : (clearSnaps s).haveEnd = false := rfl
@[simp] theorem clearSnaps_snapshotFault : (clearSnaps s).snapshotFault = s.snapshotFault := rfl
@[simp] theorem clearSnaps_seq : (clearSnaps s).seq = s.seq := rfl
@[simp] theorem clearSnaps_mem : (clearSnaps s).mem = s.mem := rfl
@[simp] theorem clearSnaps_device : (clearSnaps s).device = s.device := rfl
@[simp] theorem clearSnaps_trace : (clearSnaps s).trace = s.trace := rfl
@[simp] theorem clearSnaps_callerQueue : (clearSnaps s).callerQueue = s.callerQueue := rfl
@[simp] theorem clearSnaps_callerIn : (clearSnaps s).callerIn = s.callerIn := rfl

/-! ### keepStart -/

@[simp] theorem keepStart_cmdBase (v : Word16) : (keepStart v s).cmdBase = s.cmdBase := rfl
@[simp] theorem keepStart_ctlBase (v : Word16) : (keepStart v s).ctlBase = s.ctlBase := rfl
@[simp] theorem keepStart_pos (v : Word16) : (keepStart v s).pos = s.pos := rfl
@[simp] theorem keepStart_ustat (v : Word16) : (keepStart v s).ustat = s.ustat := rfl
@[simp] theorem keepStart_req (v : Word16) : (keepStart v s).req = s.req := rfl
@[simp] theorem keepStart_arg0 (v : Word16) : (keepStart v s).arg0 = s.arg0 := rfl
@[simp] theorem keepStart_arg1 (v : Word16) : (keepStart v s).arg1 = s.arg1 := rfl
@[simp] theorem keepStart_result (v : Word16) : (keepStart v s).result = s.result := rfl
@[simp] theorem keepStart_tOp (v : Word16) : (keepStart v s).tOp = s.tOp := rfl
@[simp] theorem keepStart_tBuf (v : Word16) : (keepStart v s).tBuf = s.tBuf := rfl
@[simp] theorem keepStart_tL (v : Word16) : (keepStart v s).tL = s.tL := rfl
@[simp] theorem keepStart_tOff (v : Word16) : (keepStart v s).tOff = s.tOff := rfl
@[simp] theorem keepStart_tLba (v : Word16) : (keepStart v s).tLba = s.tLba := rfl
@[simp] theorem keepStart_tSect (v : Word16) : (keepStart v s).tSect = s.tSect := rfl
@[simp] theorem keepStart_tEnd (v : Word16) : (keepStart v s).tEnd = s.tEnd := rfl
@[simp] theorem keepStart_loopS (v : Word16) : (keepStart v s).loopS = s.loopS := rfl
@[simp] theorem keepStart_loopW (v : Word16) : (keepStart v s).loopW = s.loopW := rfl
@[simp] theorem keepStart_startSnap (v : Word16) : (keepStart v s).startSnap = s.startSnap.setIfInBounds s.loopW.toNat (some v) := rfl
@[simp] theorem keepStart_endSnap (v : Word16) : (keepStart v s).endSnap = s.endSnap := rfl
@[simp] theorem keepStart_haveStart (v : Word16) : (keepStart v s).haveStart = s.haveStart := rfl
@[simp] theorem keepStart_haveEnd (v : Word16) : (keepStart v s).haveEnd = s.haveEnd := rfl
@[simp] theorem keepStart_snapshotFault (v : Word16) : (keepStart v s).snapshotFault = s.snapshotFault := rfl
@[simp] theorem keepStart_seq (v : Word16) : (keepStart v s).seq = s.seq := rfl
@[simp] theorem keepStart_mem (v : Word16) : (keepStart v s).mem = s.mem := rfl
@[simp] theorem keepStart_device (v : Word16) : (keepStart v s).device = s.device := rfl
@[simp] theorem keepStart_trace (v : Word16) : (keepStart v s).trace = s.trace := rfl
@[simp] theorem keepStart_callerQueue (v : Word16) : (keepStart v s).callerQueue = s.callerQueue := rfl
@[simp] theorem keepStart_callerIn (v : Word16) : (keepStart v s).callerIn = s.callerIn := rfl

/-! ### keepEnd -/

@[simp] theorem keepEnd_cmdBase (v : Word16) : (keepEnd v s).cmdBase = s.cmdBase := rfl
@[simp] theorem keepEnd_ctlBase (v : Word16) : (keepEnd v s).ctlBase = s.ctlBase := rfl
@[simp] theorem keepEnd_pos (v : Word16) : (keepEnd v s).pos = s.pos := rfl
@[simp] theorem keepEnd_ustat (v : Word16) : (keepEnd v s).ustat = s.ustat := rfl
@[simp] theorem keepEnd_req (v : Word16) : (keepEnd v s).req = s.req := rfl
@[simp] theorem keepEnd_arg0 (v : Word16) : (keepEnd v s).arg0 = s.arg0 := rfl
@[simp] theorem keepEnd_arg1 (v : Word16) : (keepEnd v s).arg1 = s.arg1 := rfl
@[simp] theorem keepEnd_result (v : Word16) : (keepEnd v s).result = s.result := rfl
@[simp] theorem keepEnd_tOp (v : Word16) : (keepEnd v s).tOp = s.tOp := rfl
@[simp] theorem keepEnd_tBuf (v : Word16) : (keepEnd v s).tBuf = s.tBuf := rfl
@[simp] theorem keepEnd_tL (v : Word16) : (keepEnd v s).tL = s.tL := rfl
@[simp] theorem keepEnd_tOff (v : Word16) : (keepEnd v s).tOff = s.tOff := rfl
@[simp] theorem keepEnd_tLba (v : Word16) : (keepEnd v s).tLba = s.tLba := rfl
@[simp] theorem keepEnd_tSect (v : Word16) : (keepEnd v s).tSect = s.tSect := rfl
@[simp] theorem keepEnd_tEnd (v : Word16) : (keepEnd v s).tEnd = s.tEnd := rfl
@[simp] theorem keepEnd_loopS (v : Word16) : (keepEnd v s).loopS = s.loopS := rfl
@[simp] theorem keepEnd_loopW (v : Word16) : (keepEnd v s).loopW = s.loopW := rfl
@[simp] theorem keepEnd_startSnap (v : Word16) : (keepEnd v s).startSnap = s.startSnap := rfl
@[simp] theorem keepEnd_endSnap (v : Word16) : (keepEnd v s).endSnap = s.endSnap.setIfInBounds s.loopW.toNat (some v) := rfl
@[simp] theorem keepEnd_haveStart (v : Word16) : (keepEnd v s).haveStart = s.haveStart := rfl
@[simp] theorem keepEnd_haveEnd (v : Word16) : (keepEnd v s).haveEnd = s.haveEnd := rfl
@[simp] theorem keepEnd_snapshotFault (v : Word16) : (keepEnd v s).snapshotFault = s.snapshotFault := rfl
@[simp] theorem keepEnd_seq (v : Word16) : (keepEnd v s).seq = s.seq := rfl
@[simp] theorem keepEnd_mem (v : Word16) : (keepEnd v s).mem = s.mem := rfl
@[simp] theorem keepEnd_device (v : Word16) : (keepEnd v s).device = s.device := rfl
@[simp] theorem keepEnd_trace (v : Word16) : (keepEnd v s).trace = s.trace := rfl
@[simp] theorem keepEnd_callerQueue (v : Word16) : (keepEnd v s).callerQueue = s.callerQueue := rfl
@[simp] theorem keepEnd_callerIn (v : Word16) : (keepEnd v s).callerIn = s.callerIn := rfl

/-! ### hardReset -/

@[simp] theorem hardReset_cmdBase : (hardReset s).cmdBase = State.reset.cmdBase := rfl
@[simp] theorem hardReset_ctlBase : (hardReset s).ctlBase = State.reset.ctlBase := rfl
@[simp] theorem hardReset_pos : (hardReset s).pos = State.reset.pos := rfl
@[simp] theorem hardReset_ustat : (hardReset s).ustat = State.reset.ustat := rfl
@[simp] theorem hardReset_req : (hardReset s).req = State.reset.req := rfl
@[simp] theorem hardReset_arg0 : (hardReset s).arg0 = State.reset.arg0 := rfl
@[simp] theorem hardReset_arg1 : (hardReset s).arg1 = State.reset.arg1 := rfl
@[simp] theorem hardReset_result : (hardReset s).result = State.reset.result := rfl
@[simp] theorem hardReset_tOp : (hardReset s).tOp = State.reset.tOp := rfl
@[simp] theorem hardReset_tBuf : (hardReset s).tBuf = State.reset.tBuf := rfl
@[simp] theorem hardReset_tL : (hardReset s).tL = State.reset.tL := rfl
@[simp] theorem hardReset_tOff : (hardReset s).tOff = State.reset.tOff := rfl
@[simp] theorem hardReset_tLba : (hardReset s).tLba = State.reset.tLba := rfl
@[simp] theorem hardReset_tSect : (hardReset s).tSect = State.reset.tSect := rfl
@[simp] theorem hardReset_tEnd : (hardReset s).tEnd = State.reset.tEnd := rfl
@[simp] theorem hardReset_loopS : (hardReset s).loopS = State.reset.loopS := rfl
@[simp] theorem hardReset_loopW : (hardReset s).loopW = State.reset.loopW := rfl
@[simp] theorem hardReset_startSnap : (hardReset s).startSnap = State.reset.startSnap := rfl
@[simp] theorem hardReset_endSnap : (hardReset s).endSnap = State.reset.endSnap := rfl
@[simp] theorem hardReset_haveStart : (hardReset s).haveStart = State.reset.haveStart := rfl
@[simp] theorem hardReset_haveEnd : (hardReset s).haveEnd = State.reset.haveEnd := rfl
@[simp] theorem hardReset_snapshotFault : (hardReset s).snapshotFault = State.reset.snapshotFault := rfl
@[simp] theorem hardReset_seq : (hardReset s).seq = State.reset.seq := rfl
@[simp] theorem hardReset_mem : (hardReset s).mem = s.mem := rfl
@[simp] theorem hardReset_device : (hardReset s).device = s.device := rfl
@[simp] theorem hardReset_trace : (hardReset s).trace = s.trace := rfl
@[simp] theorem hardReset_callerQueue : (hardReset s).callerQueue = s.callerQueue := rfl
@[simp] theorem hardReset_callerIn : (hardReset s).callerIn = s.callerIn := rfl

end Sys2Proof.Machine
end

