-- ==== Sys2Proof/Laws/Flags.lean ====
section
/-! SUPPORT. USTAT's fields of a USTAT put together by `ustatOf`, and the status of the states the shared operations
give. -/

namespace Sys2Proof.Machine

@[simp] theorem ustatBusy_ustatOf (b i f : Bool) (e : Byte) : ustatBusy (ustatOf b i f e) = b := by
  cases b <;> cases i <;> cases f <;> simp [ustatBusy, ustatOf]

@[simp] theorem ustatInit_ustatOf (b i f : Bool) (e : Byte) : ustatInit (ustatOf b i f e) = i := by
  cases b <;> cases i <;> cases f <;> simp [ustatInit, ustatOf]

@[simp] theorem ustatFault_ustatOf (b i f : Bool) (e : Byte) : ustatFault (ustatOf b i f e) = f := by
  cases b <;> cases i <;> cases f <;> simp [ustatFault, ustatOf]

@[simp] theorem ustatReserved_ustatOf (b i f : Bool) (e : Byte) : ustatReserved (ustatOf b i f e) = 0#5 := by
  apply BitVec.eq_of_getLsbD_eq
  intro k hk
  have h : k = 0 ∨ k = 1 ∨ k = 2 ∨ k = 3 ∨ k = 4 := by omega
  rcases h with rfl | rfl | rfl | rfl | rfl <;> cases b <;> cases i <;> cases f <;>
    simp [ustatReserved, ustatOf]

@[simp] theorem ustatErr_ustatOf (b i f : Bool) (e : Byte) : ustatErr (ustatOf b i f e) = e := by
  apply BitVec.eq_of_getLsbD_eq
  intro k hk
  have h : k = 0 ∨ k = 1 ∨ k = 2 ∨ k = 3 ∨ k = 4 ∨ k = 5 ∨ k = 6 ∨ k = 7 := by omega
  rcases h with rfl | rfl | rfl | rfl | rfl | rfl | rfl | rfl <;> cases b <;> cases i <;> cases f <;>
    simp [ustatErr, ustatOf]

/-- USTAT is its fields, when the reserved bits read 0 (R24). -/
theorem ustat_eq_of_fields (u v : Word16) (hb : ustatBusy u = ustatBusy v) (hi : ustatInit u = ustatInit v)
    (hf : ustatFault u = ustatFault v) (hr : ustatReserved u = ustatReserved v) (he : ustatErr u = ustatErr v) :
    u = v := by
  apply BitVec.eq_of_getLsbD_eq
  intro k hk
  rcases Nat.lt_or_ge k 3 with h | h
  · have : k = 0 ∨ k = 1 ∨ k = 2 := by omega
    rcases this with rfl | rfl | rfl
    · exact hb
    · exact hi
    · exact hf
  · rcases Nat.lt_or_ge k 8 with h8 | h8
    · have := congrArg (fun x => x.getLsbD (k - 3)) hr
      simpa [ustatReserved, BitVec.getLsbD_extractLsb', show k - 3 < 5 by omega, show 3 + (k - 3) = k by omega] using this
    · have := congrArg (fun x => x.getLsbD (k - 8)) he
      simpa [ustatErr, BitVec.getLsbD_extractLsb', show k - 8 < 8 by omega, show 8 + (k - 8) = k by omega] using this

variable (s : State)

@[simp] theorem busy_ustat (u : Word16) : State.busy { s with ustat := u } = ustatBusy u := rfl

@[simp] theorem raiseFault_busy (c : FatalCode) : (raiseFault c s).busy = false := by simp [State.busy]
@[simp] theorem raiseFault_inited (c : FatalCode) : (raiseFault c s).inited = s.inited := by simp [State.inited]
@[simp] theorem raiseFault_faultFlag (c : FatalCode) : (raiseFault c s).faultFlag = true := by simp [State.faultFlag]
@[simp] theorem raiseFault_err (c : FatalCode) : (raiseFault c s).err = c.code := by simp [State.err]

@[simp] theorem raiseUnwrittenSnapshot_busy : (raiseUnwrittenSnapshot s).busy = false := by simp [State.busy]
@[simp] theorem raiseUnwrittenSnapshot_inited : (raiseUnwrittenSnapshot s).inited = s.inited := by simp [State.inited]
@[simp] theorem raiseUnwrittenSnapshot_faultFlag : (raiseUnwrittenSnapshot s).faultFlag = true := by simp [State.faultFlag]
@[simp] theorem raiseUnwrittenSnapshot_err : (raiseUnwrittenSnapshot s).err = Config.unwrittenSnapshotErr := by
  simp [State.err]

@[simp] theorem completeOk_busy (r : Word64) : (completeOk r s).busy = false := by simp [State.busy]
@[simp] theorem completeOk_inited (r : Word64) : (completeOk r s).inited = s.inited := by simp [State.inited]
@[simp] theorem completeOk_faultFlag (r : Word64) : (completeOk r s).faultFlag = s.faultFlag := by
  simp [State.faultFlag]
@[simp] theorem completeOk_err (r : Word64) : (completeOk r s).err = 0x00#8 := by simp [State.err]

@[simp] theorem completeErr_busy (e : ResultCode) : (completeErr e s).busy = false := by simp [State.busy]
@[simp] theorem completeErr_inited (e : ResultCode) : (completeErr e s).inited = s.inited := by simp [State.inited]
@[simp] theorem completeErr_faultFlag (e : ResultCode) : (completeErr e s).faultFlag = s.faultFlag := by
  simp [State.faultFlag]
@[simp] theorem completeErr_err (e : ResultCode) : (completeErr e s).err = e.code := by simp [State.err]

@[simp] theorem accepted_busy (i : Instr) : (accepted i s).busy = true := by simp [State.busy]
@[simp] theorem accepted_inited (i : Instr) : (accepted i s).inited = s.inited := by simp [State.inited]
@[simp] theorem accepted_faultFlag (i : Instr) : (accepted i s).faultFlag = s.faultFlag := by simp [State.faultFlag]
@[simp] theorem accepted_err (i : Instr) : (accepted i s).err = s.err := by simp [State.err]

@[simp] theorem setInited_busy : (setInited s).busy = s.busy := by simp [State.busy]
@[simp] theorem setInited_inited : (setInited s).inited = true := by simp [State.inited]
@[simp] theorem setInited_faultFlag : (setInited s).faultFlag = s.faultFlag := by simp [State.faultFlag]
@[simp] theorem setInited_err : (setInited s).err = s.err := by simp [State.err]

end Sys2Proof.Machine
end

