-- ==== Sys2Proof/Laws/Memory.lean ====
section
/-! SUPPORT. The laws of memory: read after write, and that every operation keeps the canonical form. -/

namespace Sys2Proof.Machine

@[simp] theorem Memory.get_nil (a : Nat) : Memory.get [] a = Memory.unlisted := rfl

theorem Memory.wfFrom_mono {lo lo' : Nat} (h : lo' ≤ lo) (m : Memory) (hm : Memory.wfFrom lo m = true) :
    Memory.wfFrom lo' m = true := by
  cases m with
  | nil => rfl
  | cons c rest =>
    simp only [Memory.wfFrom, Bool.and_eq_true, decide_eq_true_eq] at hm ⊢
    exact ⟨⟨by omega, hm.1.2⟩, hm.2⟩

/-- Below its first address a canonical list holds nothing. -/
theorem Memory.get_of_lt {lo a : Nat} (m : Memory) (hm : Memory.wfFrom lo m = true) (ha : a < lo) :
    m.get a = Memory.unlisted := by
  induction m generalizing lo with
  | nil => rfl
  | cons c rest ih =>
    simp only [Memory.wfFrom, Bool.and_eq_true, decide_eq_true_eq] at hm
    simp only [Memory.get]
    rw [if_neg (by omega)]
    exact ih hm.2 (by omega)

theorem Memory.get_set_of_wfFrom {lo : Nat} (m : Memory) (hm : Memory.wfFrom lo m = true) (a b : Nat) (v : Byte) :
    (m.set a v).get b = if b = a then v else m.get b := by
  induction m generalizing lo with
  | nil => by_cases hv : v = Memory.unlisted <;> simp [Memory.set, hv, Memory.get]
  | cons c rest ih =>
    obtain ⟨k, u⟩ := c
    simp only [Memory.wfFrom, Bool.and_eq_true, decide_eq_true_eq] at hm
    have above : ∀ x, x ≤ k → Memory.get rest x = Memory.unlisted := fun x hx =>
      Memory.get_of_lt rest hm.2 (by omega)
    simp only [Memory.set]
    split
    · simp only [Memory.get, ih hm.2]
      split <;> split <;> first | rfl | omega
    · split
      · rename_i hka
        subst hka
        split
        · rename_i hv
          by_cases hb : b = k
          · simp [hb, above k (le_refl k), hv]
          · simp [hb, Memory.get]
        · by_cases hb : b = k <;> simp [hb, Memory.get]
      · split
        · rename_i hv
          by_cases hb : b = a
          · simp [hb, Memory.get, hv, above a (by omega), show a ≠ k by omega]
          · simp [hb]
        · by_cases hb : b = a <;> simp [hb, Memory.get]

/-- Read after write. -/
theorem Memory.get_set (m : Memory) (hm : m.wf = true) (a b : Nat) (v : Byte) :
    (m.set a v).get b = if b = a then v else m.get b :=
  Memory.get_set_of_wfFrom m hm a b v

theorem Memory.wfFrom_set {lo : Nat} (m : Memory) (hm : Memory.wfFrom lo m = true) (a : Nat) (v : Byte) (ha : lo ≤ a) :
    Memory.wfFrom lo (m.set a v) = true := by
  induction m generalizing lo with
  | nil => by_cases hv : v = Memory.unlisted <;> simp [Memory.set, hv, Memory.wfFrom, ha]
  | cons c rest ih =>
    obtain ⟨k, u⟩ := c
    simp only [Memory.wfFrom, Bool.and_eq_true, decide_eq_true_eq] at hm
    simp only [Memory.set]
    split
    · simp only [Memory.wfFrom, Bool.and_eq_true, decide_eq_true_eq]
      exact ⟨hm.1, ih hm.2 (by omega)⟩
    · split
      · split
        · exact Memory.wfFrom_mono (by omega) rest hm.2
        · rename_i hka hv
          simp only [Memory.wfFrom, Bool.and_eq_true, decide_eq_true_eq]
          exact ⟨⟨ha, hv⟩, hka ▸ hm.2⟩
      · split
        · simp only [Memory.wfFrom, Bool.and_eq_true, decide_eq_true_eq]
          exact hm
        · rename_i hv
          simp only [Memory.wfFrom, Bool.and_eq_true, decide_eq_true_eq]
          exact ⟨⟨ha, hv⟩, ⟨by omega, hm.1.2⟩, hm.2⟩

/-- A write keeps the canonical form. -/
theorem Memory.wf_set (m : Memory) (hm : m.wf = true) (a : Nat) (v : Byte) : (m.set a v).wf = true :=
  Memory.wfFrom_set m hm a v (Nat.zero_le a)

/-- A write below `n` keeps every address below `n`. -/
theorem Memory.below_set {n : Nat} (m : Memory) (hm : m.below n = true) (a : Nat) (v : Byte) (ha : a < n) :
    (m.set a v).below n = true := by
  induction m with
  | nil => by_cases hv : v = Memory.unlisted <;> simp [Memory.set, hv, Memory.below, ha]
  | cons c rest ih =>
    obtain ⟨k, u⟩ := c
    simp only [Memory.below, List.all_cons, Bool.and_eq_true, decide_eq_true_eq] at hm ih
    simp only [Memory.set]
    split
    · simp only [Memory.below, List.all_cons, Bool.and_eq_true, decide_eq_true_eq]
      exact ⟨hm.1, ih hm.2⟩
    · split <;> split <;>
        simp only [Memory.below, List.all_cons, Bool.and_eq_true, decide_eq_true_eq] <;>
        first | exact hm.2 | exact ⟨ha, hm.2⟩ | exact hm | exact ⟨ha, hm⟩

/-- What MemRead answers. -/
theorem memRead_eq_some {m : Memory} {a : Nat} {v : Byte} :
    memRead m a = some v ↔ a < Config.memBytes ∧ m.get a = v := by
  simp [memRead]

/-- What MemWrite answers. -/
theorem memWrite_eq_some {m m' : Memory} {a : Nat} {v : Byte} :
    memWrite m a v = some m' ↔ a < Config.memBytes ∧ m.set a v = m' := by
  simp [memWrite]

/-- MemWrite keeps the canonical form. -/
theorem memWrite_wf {m m' : Memory} {a : Nat} {v : Byte} (h : memWrite m a v = some m') (hm : m.wf = true) :
    m'.wf = true := by
  obtain ⟨_, rfl⟩ := memWrite_eq_some.1 h
  exact Memory.wf_set m hm a v

/-- MemWrite stays inside the address space. -/
theorem memWrite_below {m m' : Memory} {a : Nat} {v : Byte} (h : memWrite m a v = some m')
    (hm : m.below Config.memBytes = true) : m'.below Config.memBytes = true := by
  obtain ⟨ha, rfl⟩ := memWrite_eq_some.1 h
  exact Memory.below_set m hm a v ha

/-- The scatter of a word keeps what every one-byte write keeps. -/
theorem scatter_keeps (P : Memory → Prop)
    (hP : ∀ m m' : Memory, ∀ a v, memWrite m a v = some m' → P m → P m')
    {buf l : Nat} {idx : Int} {v : Word16} {m m' : Memory} (h : scatter buf idx l v m = some m') (hm : P m) :
    P m' := by
  unfold scatter at h
  split at h
  · exact hP _ _ _ _ h hm
  · cases h; exact hm
  · split at h
    · rename_i h1
      exact hP _ _ _ _ h (hP _ _ _ _ h1 hm)
    · cases h
  · exact hP _ _ _ _ h hm
  · cases h; exact hm

/-- The scatter keeps the canonical form. -/
theorem scatter_wf {buf l : Nat} {idx : Int} {v : Word16} {m m' : Memory}
    (h : scatter buf idx l v m = some m') (hm : m.wf = true) : m'.wf = true :=
  scatter_keeps (fun m => m.wf = true) (fun _ _ _ _ h1 h2 => memWrite_wf h1 h2) h hm

/-- The scatter stays inside the address space. -/
theorem scatter_below {buf l : Nat} {idx : Int} {v : Word16} {m m' : Memory}
    (h : scatter buf idx l v m = some m') (hm : m.below Config.memBytes = true) :
    m'.below Config.memBytes = true :=
  scatter_keeps (fun m => m.below Config.memBytes = true) (fun _ _ _ _ h1 h2 => memWrite_below h1 h2) h hm

/-- A position on the disk is below its size. -/
theorem diskPos_lt (lba : BitVec 28) {b : Nat} (hb : b < 512) : diskPos lba b < Config.diskSectors * 512 := by
  have := lba.isLt
  simp only [diskPos, Config.sectorBytes, Config.diskSectors]
  omega

/-- A word of the disk replaced keeps the canonical form. -/
theorem setDiskWord_wf (m : Memory) (hm : m.wf = true) (lba : BitVec 28) (w : Nat) (v : Word16) :
    (setDiskWord m lba w v).wf = true :=
  Memory.wf_set _ (Memory.wf_set m hm _ _) _ _

/-- A word of the disk replaced stays on the disk. -/
theorem setDiskWord_below (m : Memory) (hm : m.below (Config.diskSectors * 512) = true) (lba : BitVec 28) {w : Nat}
    (hw : w < 256) (v : Word16) : (setDiskWord m lba w v).below (Config.diskSectors * 512) = true :=
  Memory.below_set _ (Memory.below_set m hm _ _ (diskPos_lt lba (by omega))) _ _ (diskPos_lt lba (by omega))

end Sys2Proof.Machine
end

