-- ==== Sys2Proof/Laws/Ops.lean ====
section
/-! SUPPORT. What each shared operation can do, said once: the port reads, the acceptance of a request, the loop
variables after a word, a word's two bytes, the buffer and snapshot reads of the merge. -/

namespace Sys2Proof.Machine

variable {s : State}

@[simp] theorem portIn8_value (p : PortName) (s : State) : (portIn8 p s).1 = (s.device.in8 p).1 := rfl

@[simp] theorem portIn16_value (s : State) : (portIn16 s).1 = s.device.in16.1 := rfl

/-- The low byte of `{hi, lo}` (R11, R53). -/
theorem loByte_joinBytes (h l : Byte) : loByte (joinBytes h l) = l := by
  apply BitVec.eq_of_getLsbD_eq; intro i hi
  simp only [loByte, joinBytes, BitVec.getLsbD_extractLsb', Nat.zero_add, hi, decide_true, Bool.true_and]
  exact (BitVec.getLsbD_append (x := h) (y := l)).trans (if_pos hi)

/-- The high byte of `{hi, lo}` (R11, R53). -/
theorem hiByte_joinBytes (h l : Byte) : hiByte (joinBytes h l) = h := by
  apply BitVec.eq_of_getLsbD_eq; intro i hi
  simp only [hiByte, joinBytes, BitVec.getLsbD_extractLsb', hi, decide_true, Bool.true_and]
  rw [BitVec.getLsbD_append (x := h) (y := l), if_neg (by omega), Nat.add_sub_cancel_left]

/-- A 9-bit word index counts up without wrapping. -/
theorem toNat_add9 {w : BitVec 9} (h : w.toNat < 256) : (w + 1#9).toNat = w.toNat + 1 := by
  simp [BitVec.toNat_add]; omega

/-- A 16-bit sector index counts up without wrapping. -/
theorem toNat_add16 {w : Word16} (h : w.toNat < 65535) : (w + 1#16).toNat = w.toNat + 1 := by
  simp [BitVec.toNat_add]; omega

/-- The four things a written request word can do (R39, R256). -/
theorem request_cases (i : Instr) (body : State → State) (s : State) :
    (s.seq = .faulted ∧ request i body s = s) ∨
    (s.seq ≠ .faulted ∧ s.busy = true ∧ request i body s = raiseFault .requestWhileBusy s) ∨
    (s.seq ≠ .faulted ∧ s.busy = false ∧ ∃ c, acceptFault i s = some c ∧ request i body s = raiseFault c s) ∨
    (s.seq ≠ .faulted ∧ s.busy = false ∧ acceptFault i s = none ∧ request i body s = body (accepted i s)) := by
  unfold request gated
  by_cases h1 : s.seq = .faulted
  · simp [h1]
  · by_cases h2 : s.busy = true
    · simp [h1, h2]
    · cases h3 : acceptFault i s <;> simp_all

/-- Past its checks a request runs its body (R39). -/
theorem request_accepted (i) (body) (h : s.seq ≠ .faulted) (hb : s.busy = false) (ha : acceptFault i s = none) :
    request i body s = body (accepted i s) := by
  rcases request_cases i body s with ⟨e, _⟩ | ⟨_, e, _⟩ | ⟨_, _, c, e, _⟩ | ⟨_, _, _, e⟩
  · exact absurd e h
  · rw [hb] at e; cases e
  · rw [ha] at e; cases e
  · exact e

/-- A request that passes check 5 comes with a handle (R256). -/
theorem handleFault_none (h : handleFault s = none) : s.inited = true := by
  unfold handleFault at h; split at h
  · assumption
  · cases h

/-- What a READ or WRITE that passes checks 5 and 7 to 9 fulfils (R256). -/
theorem transferFault_none (h : (handleFault s).or (transferFault s) = none) :
    s.inited = true ∧ s.pos.toNat + s.arg1.toNat ≤ 2 ^ 64 - 1 ∧ s.arg0.toNat + s.arg1.toNat ≤ 2 ^ 64 ∧
      requiredSectors s.pos.toNat s.arg1.toNat ≤ 255 := by
  obtain ⟨h1, h2⟩ := Option.or_eq_none_iff.1 h
  refine ⟨handleFault_none h1, ?_⟩
  unfold transferFault at h2
  split at h2; cases h2
  split at h2; cases h2
  split at h2; cases h2
  simp only [Config.posLimit, Config.memBytes, Config.maxSectors] at *
  omega

/-- The three things that can come after a data word (R201, R224). -/
theorem nextWord_cases (l : Leg) (done : State → State) (s : State) :
    nextWord l done s = bumpWord s ∨ nextWord l done s = goPoint (.leg l .wrBsy) (bumpSector s) ∨ nextWord l done s = done s := by
  unfold nextWord; split; exact .inl rfl; split; exact .inr (.inl rfl); exact .inr (.inr rfl)

/-- A latched transfer that passed its checks is a legal one (R30). -/
theorem latchTransfer_ok (op : TransferOp) (h0 : 0 < s.arg1.toNat) (h1 : s.pos.toNat + s.arg1.toNat ≤ 2 ^ 64 - 1)
    (h2 : s.arg0.toNat + s.arg1.toNat ≤ 2 ^ 64) (h3 : requiredSectors s.pos.toNat s.arg1.toNat ≤ 255) :
    (latchTransfer op s).TransferOk := by
  have hp := s.pos.isLt
  constructor
  · exact h0
  · exact h1
  · exact h2
  · show (BitVec.ofNat 16 _).toNat = _
    rw [BitVec.toNat_ofNat, Nat.mod_eq_of_lt (by omega)]; rfl
  · show (BitVec.ofNat 16 _).toNat ≤ _
    rw [BitVec.toNat_ofNat, Nat.mod_eq_of_lt (by omega)]; exact h3
  · show (BitVec.ofNat 9 _).toNat = _
    simp only [sectorOffset, Config.sectorBytes, latchTransfer_pos]
    rw [BitVec.toNat_ofNat]; omega
  · show (BitVec.ofNat 64 _).toNat = _
    simp only [sectorIndex, Config.sectorBytes, latchTransfer_pos]
    rw [BitVec.toNat_ofNat]; omega
  · show (s.pos + s.arg1).toNat = _
    rw [BitVec.toNat_add, Nat.mod_eq_of_lt (by omega)]; rfl

/-- A byte the merge reads is a byte of caller memory (R225). -/
theorem bufferByte_ok {s : State} {i : Nat} {v : Byte} (h : bufferByte s i = .ok v) : v = s.mem.get (s.tBuf.toNat + i) := by
  unfold bufferByte memRead at h
  split at h
  · rename_i x hx
    split at hx
    · cases hx; cases h; rfl
    · cases hx
  · cases h

/-- A start word the merge reads is an element of START_SNAP (R225). -/
theorem startWord_ok {s : State} {v : Word16} (h : startWord s = .ok v) : s.startSnap[s.loopW.toNat]? = some (some v) := by
  unfold startWord snapElem at h
  cases hh : s.haveStart <;> rw [hh] at h
  · cases h
  · cases hx : s.startSnap[s.loopW.toNat]? with
    | none => rw [hx] at h; cases h
    | some y => cases y with
      | none => rw [hx] at h; cases h
      | some z => rw [hx] at h; cases h; rfl

/-- An end word the merge reads is an element of END_SNAP (R225). -/
theorem endWord_ok {s : State} {v : Word16} (h : endWord s = .ok v) : s.endSnap[s.loopW.toNat]? = some (some v) := by
  unfold endWord snapElem at h
  cases hh : s.haveEnd <;> rw [hh] at h
  · cases h
  · cases hx : s.endSnap[s.loopW.toNat]? with
    | none => rw [hx] at h; cases h
    | some y => cases y with
      | none => rw [hx] at h; cases h
      | some z => rw [hx] at h; cases h; rfl

/-- The three things the step of WRITE's data word can do (R224, R262, R51). -/
theorem writeWordStep_cases (s : State) :
    (∃ v, mergeWord s = .ok v ∧ writeWordStep s = .next (nextWord .write (goPoint .flBsy) (portOut16 v s))) ∨
    (mergeWord s = .error .unwrittenSnapshot ∧ writeWordStep s = .next (raiseUnwrittenSnapshot s)) ∨
    (mergeWord s = .error .outsideCallerMemory ∧ writeWordStep s = .fault .outsideCallerMemory) := by
  unfold writeWordStep
  split
  · exact .inl ⟨_, ‹_›, rfl⟩
  · exact .inr (.inl ⟨‹_›, rfl⟩)
  · exact .inr (.inr ⟨‹_›, rfl⟩)

/-- What SEEK.REL fulfils past its checks (R256, R141). -/
theorem seekFault_none (h : (handleFault s).or (seekFault s) = none) :
    s.inited = true ∧ (s.pos.toNat : Int) + s.arg0.toInt ≤ 2 ^ 64 - 1 := by
  obtain ⟨h1, h2⟩ := Option.or_eq_none_iff.1 h
  refine ⟨handleFault_none h1, ?_⟩
  unfold seekFault at h2
  split at h2
  · cases h2
  · rename_i hc
    simp only [seekCandidate, Config.posLimit] at hc
    omega

/-- The scatter of a word finds its addresses when the buffer lies in caller memory (R51, R256). -/
theorem scatter_isSome {buf l : Nat} {idx : Int} (hb : buf + l ≤ 2 ^ 64) (hl : 0 < l) (v : Word16) (m : Memory) :
    ∃ m', scatter buf idx l v m = some m' := by
  unfold scatter
  split <;> rename_i hc
  · exact ⟨_, by rw [memWrite, if_pos (by simp only [Config.memBytes]; omega)]⟩
  · exact ⟨_, rfl⟩
  · have : 0 ≤ idx ∧ idx + 1 < l := by
      unfold wordClass at hc; split at hc; cases hc; split at hc; cases hc; split at hc; constructor <;> omega
      split at hc <;> cases hc
    have e : buf + idx.toNat + 1 < 2 ^ 64 := by omega
    have e1 : memWrite m (buf + idx.toNat) (loByte v) = some (m.set (buf + idx.toNat) (loByte v)) :=
      memWrite_eq_some.2 ⟨by simp only [Config.memBytes]; omega, rfl⟩
    rw [e1]
    exact ⟨_, memWrite_eq_some.2 ⟨by simp only [Config.memBytes]; omega, rfl⟩⟩
  · have : 0 ≤ idx ∧ idx < l := by
      unfold wordClass at hc; split at hc; cases hc; split at hc; cases hc; split at hc; cases hc
      split at hc; constructor <;> omega
      cases hc
    exact ⟨_, by rw [memWrite, if_pos (by simp only [Config.memBytes]; omega)]⟩
  · exact ⟨_, rfl⟩

/-- A full snapshot answers every word (R33). -/
theorem snapElem_full {a : Snapshot} (h : a.filledTo 256) {w : Nat} (hw : w < 256) : ∃ v, snapElem true a w = some v := by
  obtain ⟨v, hv⟩ := h w hw
  exact ⟨v, by simp [snapElem, hv]⟩

/-- A word kept in a snapshot extends the words it holds (R204). -/
theorem filledTo_set {a : Snapshot} {n : Nat} (hn : n < 256) (v : Word16) (h : a.filledTo n) :
    Snapshot.filledTo (a.setIfInBounds n (some v)) (n + 1) := by
  intro k hk
  by_cases e : k = n
  · subst e
    exact ⟨v, by simp [hn]⟩
  · obtain ⟨u, hu⟩ := h k (by omega)
    refine ⟨u, ?_⟩
    rw [Vector.getElem?_setIfInBounds_ne (by omega)]
    exact hu

end Sys2Proof.Machine
end

