-- ==== Sys2Proof/Laws/Invariant.lean ====
section
/-! SUPPORT. The legal states, one operation at a time: what an operation asks of a state so that the state after it is
legal. -/

namespace Sys2Proof.Machine

variable {s : State}

/-- The parts of the invariant that do not speak of USTAT or SEQ. -/
structure State.BodyInv (s : State) : Prop where
  memWf : s.mem.wf = true
  memBelow : s.mem.below Config.memBytes = true
  device : deviceOk s.device
  base : s.cmdBase.toNat ≤ 0xFFF8
  startFull : s.haveStart = true → s.startSnap.filledTo 256
  endFull : s.haveEnd = true → s.endSnap.filledTo 256
  snapshotFault : s.snapshotFault = false

theorem State.Inv.body {s : State} (h : s.Inv) : s.BodyInv :=
  ⟨h.memWf, h.memBelow, h.device, h.base, h.startFull, h.endFull, h.snapshotFault⟩

/-- A raised fault (R255). -/
theorem inv_raiseFault {s : State} (h : s.BodyInv) (c : FatalCode) : (raiseFault c s).Inv where
  memWf := h.memWf
  memBelow := h.memBelow
  device := h.device
  base := h.base
  status := ⟨by simp, by simp [Seq.running], by simp, trivial, by simp only [raiseFault_faultFlag, raiseFault_err]; exact ⟨c, rfl⟩⟩
  startFull := h.startFull
  endFull := h.endFull
  snapshotFault := h.snapshotFault
  point := trivial

/-- A completion with OK (R257). -/
theorem inv_completeOk {s : State} (h : s.BodyInv) (hi : s.inited = true) (hf : s.faultFlag = false) (r : Word64) :
    (completeOk r s).Inv where
  memWf := h.memWf
  memBelow := h.memBelow
  device := h.device
  base := h.base
  status := ⟨by simp, by simp [Seq.running], by simp [hf], by simpa [initFlagOk] using hi,
    by simp only [completeOk_faultFlag, hf, completeOk_err]; exact ⟨.ok, rfl⟩⟩
  startFull := h.startFull
  endFull := h.endFull
  snapshotFault := h.snapshotFault
  point := trivial

/-- A completion with an error result (R257). -/
theorem inv_completeErr {s : State} (h : s.BodyInv) (hi : s.inited = true) (hf : s.faultFlag = false) (e : ResultCode) :
    (completeErr e s).Inv where
  memWf := h.memWf
  memBelow := h.memBelow
  device := h.device
  base := h.base
  status := ⟨by simp, by simp [Seq.running], by simp [hf], by simpa [initFlagOk] using hi,
    by simp only [completeErr_faultFlag, hf, completeErr_err]; exact ⟨e, rfl⟩⟩
  startFull := h.startFull
  endFull := h.endFull
  snapshotFault := h.snapshotFault
  point := trivial

/-- The transfer registers speak of these fields only. -/
theorem State.TransferOk.congr {s t : State} (h : s.TransferOk) (h1 : t.tL = s.tL) (h2 : t.pos = s.pos)
    (h3 : t.tBuf = s.tBuf) (h4 : t.tSect = s.tSect) (h5 : t.tOff = s.tOff) (h6 : t.tLba = s.tLba)
    (h7 : t.tEnd = s.tEnd) : t.TransferOk := by
  obtain ⟨a1, a2, a3, a4, a5, a6, a7, a8⟩ := h
  constructor <;> simp only [h1, h2, h3, h4, h5, h6, h7] <;> assumption

/-- What holds at a point speaks of these fields only. -/
theorem pointOk_congr {s t : State} (q : Seq) (h : pointOk q s) (h1 : t.tL = s.tL) (h2 : t.pos = s.pos)
    (h3 : t.tBuf = s.tBuf) (h4 : t.tSect = s.tSect) (h5 : t.tOff = s.tOff) (h6 : t.tLba = s.tLba)
    (h7 : t.tEnd = s.tEnd) (h8 : t.tOp = s.tOp) (h9 : t.loopS = s.loopS) (h10 : t.loopW = s.loopW)
    (h11 : t.startSnap = s.startSnap) (h12 : t.endSnap = s.endSnap) (h13 : t.haveStart = s.haveStart)
    (h14 : t.haveEnd = s.haveEnd) : pointOk q t := by
  cases q with
  | run pt =>
    cases pt with
    | leg l p =>
      obtain ⟨a, b, c, d⟩ := h
      refine ⟨h8.trans a, b.congr h1 h2 h3 h4 h5 h6 h7, ?_, ?_⟩
      · cases l <;> cases p <;> first | trivial | simpa only [loopsOk, State.legCount, h4, h9, h10] using c
      · cases l <;> cases p <;> first | trivial | simpa only [snapsOk, wordsRead, h5, h7, h10, h11, h12, h13, h14] using d
    | flBsy => exact ⟨h8.trans h.1, h.2.1.congr h1 h2 h3 h4 h5 h6 h7, by simpa only [snapsOk, h5, h7, h13, h14] using h.2.2⟩
    | flCmd => exact ⟨h8.trans h.1, h.2.1.congr h1 h2 h3 h4 h5 h6 h7, by simpa only [snapsOk, h5, h7, h13, h14] using h.2.2⟩
    | initStatus => trivial
    | initControl => trivial
  | _ => trivial

/-- The sequencer goes to a point. -/
theorem inv_goPoint {s : State} (h : s.BodyInv) (hr : ustatReserved s.ustat = 0#5) (hb : s.busy = true)
    (hf : s.faultFlag = false) (he : errOk false s.err) (pt : Point) (hi : initFlagOk (.run pt) s.inited)
    (hp : pointOk (.run pt) s) : (goPoint pt s).Inv where
  memWf := h.memWf
  memBelow := h.memBelow
  device := h.device
  base := h.base
  status := ⟨hr, by show s.busy = _; simpa [Seq.running] using hb, by show s.faultFlag = _; simpa using hf, hi,
    by show errOk s.faultFlag s.err; rwa [hf]⟩
  startFull := h.startFull
  endFull := h.endFull
  snapshotFault := h.snapshotFault
  point := pointOk_congr _ hp rfl rfl rfl rfl rfl rfl rfl rfl rfl rfl rfl rfl rfl rfl

/-- A state that differs in caller memory, the device and the model's own fields only. -/
theorem inv_of_sameUnit {s t : State} (h : s.Inv) (u : s.sameUnit t) (hm : t.mem.wf = true)
    (hb : t.mem.below Config.memBytes = true) (hd : deviceOk t.device) : t.Inv := by
  obtain ⟨u1, u2, u3, u4, u5, u6, u7, u8, u9, u10, u11, u12, u13, u14, u15, u16, u17, u18, u19, u21, u20⟩ := u
  refine ⟨hm, hb, hd, by rw [u1]; exact h.base, ?_, ?_, ?_, ?_, u21.trans h.snapshotFault⟩
  · obtain ⟨a, b, c, d, e⟩ := h.status
    have e1 : t.busy = s.busy := by simp [State.busy, u4]
    have e2 : t.faultFlag = s.faultFlag := by simp [State.faultFlag, u4]
    have e3 : t.inited = s.inited := by simp [State.inited, u4]
    have e4 : t.err = s.err := by simp [State.err, u4]
    exact ⟨by rw [u4]; exact a, by rw [e1, u20]; exact b, by rw [e2, u20]; exact c, by rw [u20, e3]; exact d,
      by rw [e2, e4]; exact e⟩
  · rw [u18, u16]; exact h.startFull
  · rw [u19, u17]; exact h.endFull
  · rw [u20]; exact pointOk_congr _ h.point u9 u3 u8 u12 u10 u11 u13 u7 u14 u15 u16 u17 u18 u19

theorem deviceOk_in8 {d : Device} (h : deviceOk d) (p : PortName) : deviceOk (d.in8 p).2 := by
  cases d with
  | oracle a b n => cases a <;> trivial
  | present r => exact h
  | absent => trivial

theorem phaseOk_command (r : RefDevice) (c : Byte) : phaseOk (r.command c).phase := by
  have hc : 1 ≤ r.count ∧ r.count ≤ 256 := by
    unfold RefDevice.count
    split
    · omega
    · rename_i h
      have := r.sc.isLt
      have : r.sc.toNat ≠ 0 := fun e => h (BitVec.eq_of_toNat_eq e)
      omega
  unfold RefDevice.command
  split
  · exact ⟨hc.1, hc.2, by omega⟩
  · split
    · exact ⟨hc.1, hc.2, by omega⟩
    · trivial

/-- No command changes the disk (R76). -/
theorem command_disk (r : RefDevice) (c : Byte) : (r.command c).disk = r.disk := by
  unfold RefDevice.command; split
  · rfl
  · split <;> rfl

theorem deviceOk_out8 {d : Device} (h : deviceOk d) (p : PortName) (v : Byte) : deviceOk (d.out8 p v) := by
  cases d with
  | oracle a b n => trivial
  | absent => trivial
  | present r =>
    obtain ⟨h1, h2, h3⟩ := h
    cases p <;> first | exact ⟨h1, h2, h3⟩ | skip
    exact ⟨by show (r.command v).disk.wf = true; rw [command_disk]; exact h1, by show (r.command v).disk.below _ = true; rw [command_disk]; exact h2, phaseOk_command r v⟩

theorem streamNext_ok {lba lba' : BitVec 28} {left w left' w' : Nat} (h1 : 1 ≤ left) (h2 : left ≤ 256) (h3 : w < 256)
    (h : streamNext lba left w = some (lba', left', w')) : 1 ≤ left' ∧ left' ≤ 256 ∧ w' < 256 := by
  unfold streamNext at h
  split at h
  · cases h; omega
  · split at h
    · cases h; omega
    · cases h

theorem phaseOk_pioInNext {lba : BitVec 28} {left w : Nat} (h1 : 1 ≤ left) (h2 : left ≤ 256) (h3 : w < 256) :
    phaseOk (pioInNext lba left w) := by
  unfold pioInNext
  split
  · rename_i h; exact streamNext_ok h1 h2 h3 h
  · trivial

theorem phaseOk_pioOutNext {lba : BitVec 28} {left w : Nat} (h1 : 1 ≤ left) (h2 : left ≤ 256) (h3 : w < 256) :
    phaseOk (pioOutNext lba left w) := by
  unfold pioOutNext
  split
  · rename_i h; exact streamNext_ok h1 h2 h3 h
  · trivial

theorem deviceOk_in16 {d : Device} (h : deviceOk d) : deviceOk d.in16.2 := by
  cases d with
  | oracle a b n => cases b <;> trivial
  | absent => trivial
  | present r =>
    obtain ⟨h1, h2, h3⟩ := h
    show deviceOk (.present r.in16.2)
    unfold RefDevice.in16
    split
    · rename_i hp
      rw [hp] at h3
      exact ⟨h1, h2, phaseOk_pioInNext h3.1 h3.2.1 h3.2.2⟩
    · exact ⟨h1, h2, h3⟩

theorem deviceOk_out16 {d : Device} (h : deviceOk d) (v : Word16) : deviceOk (d.out16 v) := by
  cases d with
  | oracle a b n => trivial
  | absent => trivial
  | present r =>
    obtain ⟨h1, h2, h3⟩ := h
    show deviceOk (.present (r.out16 v))
    unfold RefDevice.out16
    split
    · rename_i hp
      rw [hp] at h3
      exact ⟨setDiskWord_wf _ h1 _ _ _, setDiskWord_below _ h2 _ h3.2.2 _, phaseOk_pioOutNext h3.1 h3.2.1 h3.2.2⟩
    · exact ⟨h1, h2, h3⟩

theorem sameUnit_refl (s : State) : s.sameUnit s := by simp [State.sameUnit]

theorem inv_portIn8 (h : s.Inv) (p : PortName) : (portIn8 p s).2.Inv :=
  inv_of_sameUnit h (by simp [State.sameUnit]) h.memWf h.memBelow (deviceOk_in8 h.device p)

theorem inv_portOut8 (h : s.Inv) (p : PortName) (v : Byte) : (portOut8 p v s).Inv :=
  inv_of_sameUnit h (by simp [State.sameUnit]) h.memWf h.memBelow (deviceOk_out8 h.device p v)

theorem inv_portIn16 (h : s.Inv) : (portIn16 s).2.Inv :=
  inv_of_sameUnit h (by simp [State.sameUnit]) h.memWf h.memBelow (deviceOk_in16 h.device)

theorem inv_portOut16 (h : s.Inv) (v : Word16) : (portOut16 v s).Inv :=
  inv_of_sameUnit h (by simp [State.sameUnit]) h.memWf h.memBelow (deviceOk_out16 h.device v)

/-- What USTAT and the point say of a running request. -/
theorem running_facts {pt : Point} (h : s.Inv) (hs : s.seq = .run pt) :
    s.busy = true ∧ s.faultFlag = false ∧ initFlagOk (.run pt) s.inited ∧ pointOk (.run pt) s ∧ errOk false s.err := by
  have st := h.status
  have e1 := st.busy; have e2 := st.fault; have e3 := st.init; have e4 := h.point; have e5 := st.err
  rw [e2] at e5
  rw [hs] at e1 e2 e3 e4 e5
  exact ⟨e1, e2, e3, e4, e5⟩

/-- A running request goes on to another point. -/
theorem inv_go {pt pt' : Point} (h : s.Inv) (hs : s.seq = .run pt) (hi : initFlagOk (.run pt') s.inited)
    (hp : pointOk (.run pt') s) : (goPoint pt' s).Inv := by
  have st := h.status
  apply inv_goPoint h.body st.reserved (by rw [st.busy, hs]; rfl) (by rw [st.fault, hs]; rfl) _ _ hi hp
  have := st.err
  rw [st.fault, hs] at this
  exact this

/-- A status poll (R180, R181). -/
theorem inv_poll {pt pt' : Point} (done : Byte → Bool) (h : s.Inv) (hs : s.seq = .run pt)
    (hi : initFlagOk (.run pt) s.inited → initFlagOk (.run pt') s.inited)
    (hp : pointOk (.run pt) s → pointOk (.run pt') s) : (poll done pt' s).Inv := by
  unfold poll
  split
  · refine inv_go (inv_portIn8 h _) (pt := pt) hs ?_ ?_
    · apply hi; have := h.status.init; rwa [hs] at this
    · refine pointOk_congr (s := s) _ ?_ rfl rfl rfl rfl rfl rfl rfl rfl rfl rfl rfl rfl rfl rfl
      apply hp; have := h.point; rwa [hs] at this
  · exact inv_portIn8 h _

/-- A register write of `beginTransfer` (R182). -/
theorem inv_program {l : Leg} {p p' : Stage} (port : PortName) (v : Byte) (h : s.Inv) (hs : s.seq = .run (.leg l p))
    (hp : pointOk (.run (.leg l p)) s → pointOk (.run (.leg l p')) s) : (programStep port v (.leg l p') s).Inv := by
  unfold programStep
  refine inv_go (inv_portOut8 h _ _) hs ?_ ?_
  · have := h.status.init; rwa [hs] at this
  · refine pointOk_congr (s := s) _ ?_ rfl rfl rfl rfl rfl rfl rfl rfl rfl rfl rfl rfl rfl rfl
    apply hp; have := h.point; rwa [hs] at this

theorem inited_leg {l : Leg} {p : Stage} (h : s.Inv) (hs : s.seq = .run (.leg l p)) : s.inited = true := by
  have := h.status.init; rw [hs] at this; exact this

theorem inv_setMem (h : s.Inv) (m : Memory) (h1 : m.wf = true) (h2 : m.below Config.memBytes = true) :
    ({ s with mem := m } : State).Inv :=
  inv_of_sameUnit h (by simp [State.sameUnit]) h1 h2 h.device

/-- The loop variables change within a leg (R31). -/
theorem inv_setLoops {l : Leg} {p : Stage} (h : s.Inv) (hs : s.seq = .run (.leg l p)) (a : Word16) (b : BitVec 9)
    (hl : loopsOk l p { s with loopS := a, loopW := b }) (hsn : snapsOk l p { s with loopS := a, loopW := b }) :
    ({ s with loopS := a, loopW := b } : State).Inv := by
  obtain ⟨h1, h2, h3, h4, h5⟩ := running_facts h hs
  refine ⟨h.memWf, h.memBelow, h.device, h.base, ⟨h.status.reserved, h.status.busy, h.status.fault, h.status.init, h.status.err⟩, h.startFull, h.endFull, ?_, h.snapshotFault⟩
  show pointOk s.seq _
  rw [hs]
  exact ⟨h4.1, h4.2.1.congr rfl rfl rfl rfl rfl rfl rfl, hl, hsn⟩

/-- The end of a transfer (R200, R220). -/
theorem inv_finish (h : s.Inv) {pt : Point} (hs : s.seq = .run pt) (hi : s.inited = true) (p : Word64) :
    (finishTransfer p s).Inv := by
  obtain ⟨h1, h2, h3, h4, h5⟩ := running_facts h hs
  have b := h.body
  exact inv_completeOk (s := { s with pos := p }) ⟨b.memWf, b.memBelow, b.device, b.base, b.startFull, b.endFull, b.snapshotFault⟩ hi h2 _

/-- A written request word, from what its body keeps (R256). -/
theorem inv_request (i : Instr) (body : State → State) (h : s.Inv)
    (hb : s.seq ≠ .faulted → s.busy = false → acceptFault i s = none → (body (accepted i s)).Inv) :
    (request i body s).Inv := by
  rcases request_cases i body s with ⟨_, e⟩ | ⟨_, _, e⟩ | ⟨_, _, c, _, e⟩ | ⟨h1, h2, h3, e⟩ <;> rw [e]
  · exact h
  · exact inv_raiseFault h.body _
  · exact inv_raiseFault h.body _
  · exact hb h1 h2 h3

theorem accepted_body (h : s.BodyInv) (i : Instr) : (accepted i s).BodyInv :=
  ⟨h.memWf, h.memBelow, h.device, h.base, h.startFull, h.endFull, h.snapshotFault⟩

theorem notFaulted_flag (h : s.Inv) (hf : s.seq ≠ .faulted) : s.faultFlag = false := by
  rw [h.status.fault]; simpa using hf

end Sys2Proof.Machine
end

