-- ==== Sys2Proof/Laws/PerInstr.lean ====
section
/-! SUPPORT. Facts about each instruction as syntax, one lemma for each constructor. -/

namespace Sys2Proof.Laws.Surface

/-- The instruction's byte is no instruction of the other surface (R82, R92). -/
def Statement (i : Instr) : Prop := ∀ f, f ≠ i.format → ∃ e, decodeOn f (encode i) = .error e

theorem init : Statement .init := fun f h => by
  cases f <;> first | exact absurd rfl h | exact ⟨_, rfl⟩

theorem seekAbs : Statement .seekAbs := fun f h => by
  cases f <;> first | exact absurd rfl h | exact ⟨_, rfl⟩

theorem seekRel : Statement .seekRel := fun f h => by
  cases f <;> first | exact absurd rfl h | exact ⟨_, rfl⟩

theorem seekEnd : Statement .seekEnd := fun f h => by
  cases f <;> first | exact absurd rfl h | exact ⟨_, rfl⟩

theorem read : Statement .read := fun f h => by
  cases f <;> first | exact absurd rfl h | exact ⟨_, rfl⟩

theorem write : Statement .write := fun f h => by
  cases f <;> first | exact absurd rfl h | exact ⟨_, rfl⟩

theorem flush : Statement .flush := fun f h => by
  cases f <;> first | exact absurd rfl h | exact ⟨_, rfl⟩

theorem rsc : Statement .rsc := fun f h => by
  cases f <;> first | exact absurd rfl h | exact ⟨_, rfl⟩

theorem readSectors : Statement .readSectors := fun f h => by
  cases f <;> first | exact absurd rfl h | exact ⟨_, rfl⟩

theorem writeSectors : Statement .writeSectors := fun f h => by
  cases f <;> first | exact absurd rfl h | exact ⟨_, rfl⟩

theorem cacheFlush : Statement .cacheFlush := fun f h => by
  cases f <;> first | exact absurd rfl h | exact ⟨_, rfl⟩

end Sys2Proof.Laws.Surface
end

