-- ==== Sys2Proof/Laws/Run.lean ====
section
/-! SUPPORT. Runs of several steps, and the step of a running request whose caller makes no move. -/

namespace Sys2Proof.Machine

theorem steps_succ (n : Nat) (s : State) : steps (n + 1) s =
    (match step s with
      | .next t => steps n t
      | .fault f => .fault f
      | .refused r => .refused r) := rfl

/-- A run continues where an earlier one came to. -/
theorem steps_add (a b : Nat) (s t : State) (h : steps a s = .next t) : steps (a + b) s = steps b t := by
  induction a generalizing s with
  | zero => cases h; rw [Nat.zero_add]
  | succ k ih =>
    rw [Nat.succ_add, steps_succ]
    rw [steps_succ] at h
    split at h
    · exact ih _ h
    · cases h
    · cases h

/-- One step is a run. -/
theorem steps_one {s t : State} (h : step s = .next t) : steps 1 s = .next t := by
  rw [steps_succ, h]; rfl

/-- Runs compose. -/
theorem steps_trans {a b : Nat} {s t u : State} (h : steps a s = .next t) (h' : steps b t = .next u) :
    steps (a + b) s = .next u := by
  rw [steps_add a b s t h, h']

/-- With no move of the caller to come, the step of a running request is its point's (R40). -/
theorem step_at {s : State} {pt : Point} (hq : s.callerQueue = []) (h : s.seq = .run pt) : step s = pointStep pt s := by
  unfold step turn; rw [hq]; show unitStep s = _; unfold unitStep; rw [h]

/-- Everything a step can be: the unit's own, or one move of the caller or the platform (log entry 1). -/
theorem step_cases {s t : State} (h : step s = .next t) :
    (s.callerQueue = [] ∧ unitStep s = .next t) ∨
    (∃ rest, s.callerQueue = .yield :: rest ∧ unitStep (setQueue rest s) = .next t) ∨
    (∃ rest, s.callerQueue = .awaitDone :: rest ∧ s.busy = true ∧ unitStep s = .next t) ∨
    (∃ rest, s.callerQueue = .awaitDone :: rest ∧ s.busy = false ∧ t = setQueue rest s) ∨
    (∃ q rest, s.callerQueue = .writeReq q :: rest ∧ writeReq q (setQueue rest s) = .next t) ∨
    (∃ v rest, s.callerQueue = .writeArg0 v :: rest ∧ t = setArg0 v (setQueue rest s)) ∨
    (∃ v rest, s.callerQueue = .writeArg1 v :: rest ∧ t = setArg1 v (setQueue rest s)) ∨
    (∃ r rest, s.callerQueue = .readReg r :: rest ∧ t = setCallerIn (s.callerRead r) (setQueue rest s)) ∨
    (∃ a v rest, s.callerQueue = .writeMem a v :: rest ∧ ownedByUnit s a.toNat = false ∧ t = setMem (s.mem.set a.toNat v) (setQueue rest s)) ∨
    (∃ a rest, s.callerQueue = .readMem a :: rest ∧ ownedByUnit s a.toNat = false ∧ t = setCallerIn (BitVec.setWidth 64 (s.mem.get a.toNat)) (setQueue rest s)) ∨
    (∃ rest, s.callerQueue = .hardReset :: rest ∧ t = hardReset (setQueue rest s)) := by
  unfold step turn at h
  cases hq : s.callerQueue with
  | nil => rw [hq] at h; exact .inl ⟨rfl, h⟩
  | cons m rest =>
    rw [hq] at h
    refine .inr ?_
    cases m with
    | yield => exact .inl ⟨rest, rfl, h⟩
    | awaitDone =>
      have h' : awaitDone s (setQueue rest s) = .next t := h
      unfold awaitDone at h'
      cases hb : s.busy
      · rw [if_neg (by show ¬ s.busy = true; rw [hb]; decide)] at h'; cases h'; exact .inr (.inr (.inl ⟨rest, rfl, rfl, rfl⟩))
      · rw [if_pos (show (setQueue rest s).busy = true from hb)] at h'; exact .inr (.inl ⟨rest, rfl, rfl, h'⟩)
    | writeReq q => exact .inr (.inr (.inr (.inl ⟨q, rest, rfl, h⟩)))
    | writeArg0 v => cases h; exact .inr (.inr (.inr (.inr (.inl ⟨v, rest, rfl, rfl⟩))))
    | writeArg1 v => cases h; exact .inr (.inr (.inr (.inr (.inr (.inl ⟨v, rest, rfl, rfl⟩)))))
    | readReg r => cases h; exact .inr (.inr (.inr (.inr (.inr (.inr (.inl ⟨r, rest, rfl, rfl⟩))))))
    | writeMem a v =>
      have h' : callerWriteMem a v (setQueue rest s) = .next t := h
      unfold callerWriteMem at h'
      cases ho : ownedByUnit s a.toNat
      · rw [if_neg (by show ¬ ownedByUnit s a.toNat = true; rw [ho]; decide)] at h'; cases h'
        exact .inr (.inr (.inr (.inr (.inr (.inr (.inr (.inl ⟨a, v, rest, rfl, ho, rfl⟩)))))))
      · rw [if_pos (show ownedByUnit (setQueue rest s) a.toNat = true from ho)] at h'; cases h'
    | readMem a =>
      have h' : callerReadMem a (setQueue rest s) = .next t := h
      unfold callerReadMem at h'
      cases ho : ownedByUnit s a.toNat
      · rw [if_neg (by show ¬ ownedByUnit s a.toNat = true; rw [ho]; decide)] at h'; cases h'
        exact .inr (.inr (.inr (.inr (.inr (.inr (.inr (.inr (.inl ⟨a, rest, rfl, ho, rfl⟩))))))))
      · rw [if_pos (show ownedByUnit (setQueue rest s) a.toNat = true from ho)] at h'; cases h'
    | hardReset => cases h; exact .inr (.inr (.inr (.inr (.inr (.inr (.inr (.inr (.inr ⟨rest, rfl, rfl⟩))))))))

end Sys2Proof.Machine
end

