-- ==== Sys2Proof/Tests/Slice0.lean ====
section
/-! SUPPORT. Small tests with expected results from the spec (its examples and 95_test_vectors.md, named in the comments),
and for each statement with hypotheses a state that meets them. -/

namespace Sys2Proof.Machine.Tests

/-! ### The instructions as syntax -/

theorem test_wellFormed_requests : ∀ i ∈ [Instr.init, .seekAbs, .seekRel, .seekEnd, .read, .write, .flush, .rsc],
    Instr.wellFormedOn .req8 i = true := by decide
theorem test_wellFormed_commands : ∀ i ∈ [Instr.readSectors, .writeSectors, .cacheFlush],
    Instr.wellFormedOn .devcmd8 i = true := by decide
/-- Ill-formed: a device command as a request word (R82 has none). -/
theorem test_illFormed_command_on_req8 : ∀ i ∈ [Instr.readSectors, .writeSectors, .cacheFlush],
    Instr.wellFormedOn .req8 i = false := by decide
/-- Ill-formed: a request as a byte for `P_STATCMD` (R92 has three bytes only). -/
theorem test_illFormed_request_on_devcmd8 :
    ∀ i ∈ [Instr.init, .seekAbs, .seekRel, .seekEnd, .read, .write, .flush, .rsc],
      Instr.wellFormedOn .devcmd8 i = false := by decide

/-- R82, RSV then OP, bit by bit. -/
theorem test_decode_requests :
    [0b0000_0001#8, 0b0000_0010#8, 0b0000_0011#8, 0b0000_0100#8, 0b0000_0101#8, 0b0000_0110#8, 0b0000_0111#8,
      0b0000_1000#8].map (fun q => (decodeRequest q).toOption) =
    [some .init, some .seekAbs, some .seekRel, some .seekEnd, some .read, some .write, some .flush, some .rsc] := by
  decide
/-- R92, bit by bit. -/
theorem test_decode_commands :
    [0b0010_0000#8, 0b0011_0000#8, 0b1110_0111#8].map (fun c => (decodeCommand c).toOption) =
    [some .readSectors, some .writeSectors, some .cacheFlush] := by decide
/-- R83, vectors FX2, FX3, FX4: a reserved OP, RSV not 0. -/
theorem test_decode_reserved :
    [0x00#8, 0x09#8, 0x0F#8, 0x15#8, 0x81#8, 0xFF#8].map (fun q => (decodeRequest q).toOption) =
    [none, none, none, none, none, none] := by decide
theorem test_decode_table_words : (decodeTableWord 8 0x05, decodeTableWord 8 0xE7, decodeTableWord 8 0x21,
    decodeTableWord 16 0x05) = (some .read, some .cacheFlush, none, none) := by decide

/-- R97: each mnemonic stands for one instruction, and so for one word. -/
theorem test_mnemonics_distinct : ([Instr.init, .seekAbs, .seekRel, .seekEnd, .read, .write, .flush, .rsc, .readSectors,
    .writeSectors, .cacheFlush].map mnemonic).Nodup := by decide
/-- The example of R96. -/
theorem test_written_read : Machine.writtenMoves (.read 0x1000#64 3#64) =
    [.writeArg0 0x1000#64, .writeArg1 3#64, .writeReq 0x05#8, .awaitDone] := by decide

/-! ### States for the tests -/

/-- A handle at the typical primary bases of R9, no request running. -/
def demo (pos arg0 arg1 : Word64) (q : List CallerMove) : State :=
  { State.reset with
    cmdBase := 0x1F0#16
    ctlBase := 0x3F6#16
    ustat := 0x0002#16
    seq := .idle
    pos := pos
    arg0 := arg0
    arg1 := arg1
    callerQueue := q }

/-- Before INIT. -/
def fresh (arg0 : Word64) (q : List CallerMove) (d : Device) : State :=
  { State.reset with
    arg0 := arg0
    callerQueue := q
    device := d }

/-- INIT running at one of its two points. -/
def initAt (pt : Point) (d : Device) : State :=
  { demo 0#64 0#64 0#64 [] with
    ustat := ustatOf true false false 0x00#8
    seq := .run pt
    device := d }

/-- A transfer of `len` bytes at cursor `pos`, buffer `0x2000`, at a point, sector `sec` and word `w`; the device's first
status is `0x00`, its first data word `0xBBAA`. -/
def transferAt (pos len : Nat) (op : TransferOp) (pt : Point) (sec : Word16) (w : BitVec 9) (hs he : Bool)
    (q : List CallerMove) : State :=
  { demo (BitVec.ofNat 64 pos) 0x2000#64 (BitVec.ofNat 64 len) q with
    ustat := ustatOf true true false 0x00#8
    seq := .run pt
    tOp := op
    tBuf := 0x2000#64
    tL := BitVec.ofNat 64 len
    tOff := BitVec.ofNat 9 (pos % 512)
    tLba := BitVec.ofNat 64 (pos / 512)
    tSect := BitVec.ofNat 16 (requiredSectors pos len)
    tEnd := BitVec.ofNat 64 (pos + len)
    loopS := sec
    loopW := w
    startSnap := Vector.replicate 256 (some 0x1122#16)
    endSnap := Vector.replicate 256 (some 0x3344#16)
    haveStart := hs
    haveEnd := he
    device := .oracle [0x00#8] [0xBBAA#16] 0
    mem := [(0x2000, 0xA0#8), (0x2001, 0x55#8), (0x2002, 0x66#8), (0x2003, 0x77#8)] }

/-- READ, and WRITE with its snapshots read, of 4 bytes at cursor 3: word 0 is BEFORE, 1 STRADDLE_LOW, 2 INSIDE,
3 STRADDLE_HIGH, the rest AFTER (vector CL5). -/
def reading (st : Stage) (w : BitVec 9) : State := transferAt 3 4 .read (.leg .read st) 0#16 w false false []
def writing (st : Stage) (w : BitVec 9) : State := transferAt 3 4 .write (.leg .write st) 0#16 w true true []
/-- WRITE's data phase with END_SNAP empty and, as asked, HAVE_START (not a legal state). -/
def unwritten (w : BitVec 9) (hs : Bool) : State :=
  { transferAt 3 4 .write (.leg .write .xfer) 0#16 w hs true [] with endSnap := Vector.replicate 256 none }
def snappingStart (w : BitVec 9) : State := transferAt 3 4 .write (.leg .snapStart .xfer) 0#16 w false false []
def snappingEnd (w : BitVec 9) : State := transferAt 3 4 .write (.leg .snapEnd .xfer) 0#16 w true false []
def flushing (pt : Point) : State := transferAt 3 4 .write pt 0#16 0#9 true true []

/-- A handle over the present reference device, whose disk begins with `0x41`, `0x42`. -/
def attached (pos arg0 arg1 : Word64) (q : List CallerMove) : State :=
  { demo pos arg0 arg1 q with device := .present (RefDevice.fresh [(0, 0x41#8), (1, 0x42#8)]) }

/-- A faulted unit. -/
def broken (q : List CallerMove) : State := raiseFault .illegalRequest (demo 0#64 0#64 0#64 q)

/-- The state a step comes to. -/
def after (r : Result) : Option State :=
  match r with
  | .next t => some t
  | .fault _ => none
  | .refused _ => none

theorem errOk_zero : errOk false 0x00#8 := by unfold errOk; simp only [Bool.false_eq_true, if_false]; exact ⟨.ok, rfl⟩

theorem status_of {s : State} (b i : Bool) (hu : s.ustat = ustatOf b i false 0x00#8) (hb : b = s.seq.running)
    (hf : s.seq ≠ .faulted) (hi : initFlagOk s.seq i) : s.StatusOk :=
  ⟨by rw [hu]; cases b <;> cases i <;> rfl, by unfold State.busy; rw [hu, ← hb]; cases b <;> cases i <;> rfl,
    by unfold State.faultFlag; rw [hu]; simp [hf], by unfold State.inited; rw [hu]; simpa using hi,
    by unfold State.faultFlag State.err; rw [hu]; simpa using errOk_zero⟩

theorem demo_ready (pos a b : Word64) (q : List CallerMove) : (demo pos a b q).Ready :=
  ⟨rfl, status_of false true rfl rfl (by simp [demo]) rfl⟩

theorem demo_inv (pos a b : Word64) (q : List CallerMove) : (demo pos a b q).Inv :=
  ⟨rfl, rfl, trivial, by show (0x1F0#16).toNat ≤ 0xFFF8; decide, (demo_ready pos a b q).status,
    (fun h => nomatch h), (fun h => nomatch h), trivial, rfl⟩

theorem attached_inv (pos a b : Word64) (q : List CallerMove) : (attached pos a b q).Inv :=
  ⟨rfl, rfl, ⟨by show Memory.wf [(0, 0x41#8), (1, 0x42#8)] = true; decide,
      by show Memory.below _ [(0, 0x41#8), (1, 0x42#8)] = true; decide, trivial⟩,
    by show (0x1F0#16).toNat ≤ 0xFFF8; decide, status_of false true rfl rfl (by simp [attached, demo]) rfl,
    (fun h => nomatch h), (fun h => nomatch h), trivial, rfl⟩

theorem fresh_fresh (a : Word64) (q : List CallerMove) (d : Device) : (fresh a q d).Fresh :=
  ⟨rfl, status_of false false rfl rfl (by simp [fresh, State.reset]) rfl⟩

theorem fresh_inv (a : Word64) (q : List CallerMove) (d : Device) (hd : deviceOk d) : (fresh a q d).Inv :=
  ⟨rfl, rfl, hd, by show (0x0000#16).toNat ≤ 0xFFF8; decide, (fresh_fresh a q d).status,
    (fun h => nomatch h), (fun h => nomatch h), trivial, rfl⟩

theorem initAt_inv (pt : Point) (d : Device) (hd : deviceOk d) (hp : pt = .initStatus ∨ pt = .initControl) :
    (initAt pt d).Inv := by
  rcases hp with rfl | rfl <;>
    exact ⟨rfl, rfl, hd, by show (0x1F0#16).toNat ≤ 0xFFF8; decide,
      status_of true false rfl rfl (by simp [initAt]) rfl, (fun h => nomatch h), (fun h => nomatch h), trivial, rfl⟩

theorem full (v : Word16) : Snapshot.filledTo (Vector.replicate 256 (some v)) 256 :=
  fun k hk => ⟨v, by simp [hk]⟩

theorem full_to (v : Word16) {n : Nat} (hn : n ≤ 256) : Snapshot.filledTo (Vector.replicate 256 (some v)) n :=
  fun k hk => full v k (by omega)

theorem transferAt_inv {pos len : Nat} {op : TransferOp} {pt : Point} {sec : Word16} {w : BitVec 9} {hs he : Bool}
    {q : List CallerMove} (hi : initFlagOk (.run pt) true)
    (hp : pointOk (.run pt) (transferAt pos len op pt sec w hs he q)) : (transferAt pos len op pt sec w hs he q).Inv :=
  ⟨by show Memory.wf [(0x2000, 0xA0#8), (0x2001, 0x55#8), (0x2002, 0x66#8), (0x2003, 0x77#8)] = true; decide,
    by show Memory.below _ [(0x2000, 0xA0#8), (0x2001, 0x55#8), (0x2002, 0x66#8), (0x2003, 0x77#8)] = true; decide,
    trivial, by show (0x1F0#16).toNat ≤ 0xFFF8; decide, status_of true true rfl rfl (by simp [transferAt]) hi,
    fun _ => full _, fun _ => full _, hp, rfl⟩

/-- The numbers of a transfer as its registers hold them. -/
def numbersOk (pos len : Nat) : Bool :=
  decide (0 < len) && decide (pos + len < 2 ^ 64) && decide (0x2000 + len ≤ 2 ^ 64) &&
    decide (requiredSectors pos len ≤ 255)

theorem transferAt_ok {pos len : Nat} (op : TransferOp) (pt : Point) (sec : Word16) (w : BitVec 9) (hs he : Bool)
    (q : List CallerMove) (h : numbersOk pos len = true) : (transferAt pos len op pt sec w hs he q).TransferOk := by
  simp only [numbersOk, Bool.and_eq_true, decide_eq_true_eq] at h
  obtain ⟨⟨⟨h1, h2⟩, h3⟩, h4⟩ := h
  have hp : pos % 2 ^ 64 = pos := Nat.mod_eq_of_lt (by omega)
  have hl : len % 2 ^ 64 = len := Nat.mod_eq_of_lt (by omega)
  constructor <;> simp only [transferAt, demo, State.reset, BitVec.toNat_ofNat, hp, hl] <;> omega

theorem reading_inv (w : BitVec 9) (hw : w.toNat < 256) : (reading .xfer w).Inv :=
  transferAt_inv rfl ⟨rfl, transferAt_ok _ _ _ _ _ _ _ rfl, ⟨hw, by show 0 < (BitVec.ofNat 16 (requiredSectors 3 4)).toNat; decide⟩,
    trivial⟩

theorem reading_cmd_inv : (reading .cmd 0#9).Inv :=
  transferAt_inv rfl ⟨rfl, transferAt_ok _ _ _ _ _ _ _ rfl, trivial, trivial⟩

theorem writing_inv (w : BitVec 9) (hw : w.toNat < 256) : (writing .xfer w).Inv :=
  transferAt_inv rfl ⟨rfl, transferAt_ok _ _ _ _ _ _ _ rfl, ⟨hw, by show 0 < (BitVec.ofNat 16 (requiredSectors 3 4)).toNat; decide⟩,
    rfl, rfl⟩

theorem snappingStart_inv (w : BitVec 9) (hw : w.toNat < 256) : (snappingStart w).Inv :=
  transferAt_inv rfl ⟨rfl, transferAt_ok _ _ _ _ _ _ _ rfl, ⟨hw, by show 0 < 1; decide⟩,
    by show (3#9).toNat ≠ 0; decide, rfl, rfl, full_to _ (by show w.toNat ≤ 256; omega)⟩

theorem snappingEnd_inv (w : BitVec 9) (hw : w.toNat < 256) : (snappingEnd w).Inv :=
  transferAt_inv rfl ⟨rfl, transferAt_ok _ _ _ _ _ _ _ rfl, ⟨hw, by show 0 < 1; decide⟩,
    by show (7#64).toNat % 512 ≠ 0; decide, rfl, rfl, full_to _ (by show w.toNat ≤ 256; omega)⟩

theorem flushing_inv (pt : Point) (hp : pt = .flBsy ∨ pt = .flCmd) : (flushing pt).Inv := by
  rcases hp with rfl | rfl <;>
    exact transferAt_inv rfl ⟨rfl, transferAt_ok _ _ _ _ _ _ _ rfl, rfl, rfl⟩

/-- READ of two bytes across a sector boundary (vector CL9). -/
def crossing (sec : Word16) (w : BitVec 9) : State := transferAt 511 2 .read (.leg .read .xfer) sec w false false []

theorem crossing_inv (sec : Word16) (w : BitVec 9) (hs : sec.toNat < 2) (hw : w.toNat < 256) : (crossing sec w).Inv :=
  transferAt_inv rfl ⟨rfl, transferAt_ok _ _ _ _ _ _ _ rfl, ⟨hw, by
    show sec.toNat < (BitVec.ofNat 16 (requiredSectors 511 2)).toNat
    rw [show (BitVec.ofNat 16 (requiredSectors 511 2)).toNat = 2 by decide]; exact hs⟩, trivial⟩

/-- READ at its first busy-wait, with moves of the caller to come. -/
def touching (q : List CallerMove) : State := transferAt 3 4 .read (.leg .read .bw) 0#16 0#9 false false q

theorem touching_inv (q : List CallerMove) : (touching q).Inv :=
  transferAt_inv rfl ⟨rfl, transferAt_ok _ _ _ _ _ _ _ rfl, trivial, trivial⟩

theorem broken_inv (q : List CallerMove) : (broken q).Inv := inv_raiseFault (demo_inv _ _ _ _).body _

/-! ### One step of each instruction -/

/-- IN1 and IN7: the bases come from ARG0[31:0]; bits 63:32 are ignored. -/
theorem test_init_bases : (after (exec .init (fresh 0xFFFFFFFF03F601F0#64 [] .absent))).map
    (fun t => (t.cmdBase, t.ctlBase, t.busy, t.seq)) = some (0x1F0#16, 0x3F6#16, true, .run .initStatus) := by decide
/-- IN2: an absent device at INIT's status read. -/
theorem test_init_absent : (after (step (initAt .initStatus .absent))).map (fun t => (t.ustat, t.trace)) =
    some (0x8004#16, [.in8 .statCmd 0x1F7#16 0xFF#8]) := by decide
/-- SK3. -/
theorem test_seekAbs_top : (after (exec .seekAbs (demo 24#64 0xFFFFFFFFFFFFFFFF#64 0#64 []))).map
    (fun t => (t.pos, t.result, t.ustat)) = some (0xFFFFFFFFFFFFFFFF#64, 0xFFFFFFFFFFFFFFFF#64, 0x0002#16) := by decide
/-- SK4: the sum is exact, so 445 - 1000 is negative. -/
theorem test_seekRel_negative : (after (exec .seekRel (demo 445#64 0xFFFFFFFFFFFFFC18#64 0#64 []))).map
    (fun t => (t.pos, t.result, t.ustat)) = some (445#64, 0#64, 0x0102#16) := by decide
/-- SK9. -/
theorem test_seekRel_overflow : (after (exec .seekRel (demo 0xFFFFFFFFFFFFFFFF#64 1#64 0#64 []))).map
    (fun t => (t.pos, t.ustat)) = some (0xFFFFFFFFFFFFFFFF#64, 0x8506#16) := by decide
/-- SK9 and R260: the faulting SEEK.REL leaves REQ at the word before it. -/
theorem test_seekRel_overflow_precise : (after (exec .seekRel
    { demo 0xFFFFFFFFFFFFFFFF#64 1#64 0#64 [] with req := 0x08#8 })).map (fun t => (t.req, t.result, t.seq)) =
    some (0x08#8, 0#64, .faulted) := by decide
/-- SK12. -/
theorem test_seekEnd_fails : (after (exec .seekEnd (demo 445#64 0#64 0#64 []))).map (fun t => (t.pos, t.ustat)) =
    some (445#64, 0x0202#16) := by decide
/-- FX8 and FX7: `T_BUF + T_L = 2^64` is allowed, one more is BUFFER_RANGE. -/
theorem test_read_buffer_end : ((after (exec .read (demo 0#64 0xFFFFFFFFFFFFFFFF#64 1#64 []))).map (·.seq),
    (after (exec .read (demo 0#64 0xFFFFFFFFFFFFFFFF#64 2#64 []))).map (·.ustat)) =
    (some (.run (.leg .read .bw)), some 0x8806#16) := by decide
/-- FX6: POSITION_OVERFLOW comes before BUFFER_RANGE. -/
theorem test_read_check_order : (after (exec .read (demo 0xFFFFFFFFFFFFFFFF#64 0xFFFFFFFFFFFFFFFF#64 2#64 []))).map
    (·.ustat) = some 0x8506#16 := by decide
/-- W7: 256 sectors. -/
theorem test_write_too_long : (after (exec .write (demo 0#64 0x2000#64 130561#64 []))).map
    (fun t => (t.ustat, t.pos)) = some (0x8606#16, 0#64) := by decide
/-- W2: an unaligned start and an aligned end ask for the start snapshot only; W3: the other way. -/
theorem test_write_first_point : ((after (exec .write (demo 1#64 0x2000#64 511#64 []))).map (·.seq),
    (after (exec .write (demo 0#64 0x2000#64 511#64 []))).map (·.seq)) =
    (some (.run (.leg .snapStart .bw)), some (.run (.leg .snapEnd .bw))) := by decide
/-- FL2. -/
theorem test_flush : (after (exec .flush (demo 7#64 0#64 0#64 []))).map (fun t => (t.pos, t.result, t.ustat, t.trace)) =
    some (7#64, 0#64, 0x0002#16, []) := by decide
/-- The example of R164. -/
theorem test_rsc : (after (exec .rsc (demo 200#64 2000#64 0#64 []))).map (fun t => (t.pos, t.result)) =
    some (200#64, 5#64) := by decide
/-- R184. -/
theorem test_readSectors : (after (exec .readSectors (reading .cmd 0#9))).map (fun t => (t.seq, t.trace)) =
    some (.run (.leg .read .wrBsy), [.out8 .statCmd 0x1F7#16 0x20#8]) := by decide
theorem test_writeSectors : (after (exec .writeSectors (writing .cmd 0#9))).map (fun t => (t.seq, t.trace)) =
    some (.run (.leg .write .wrBsy), [.out8 .statCmd 0x1F7#16 0x30#8]) := by decide
/-- FL1 and R220: the write completes in the step of `0xE7`. -/
theorem test_cacheFlush : (after (exec .cacheFlush (flushing .flCmd))).map
    (fun t => (t.seq, t.pos, t.result, t.trace)) = some (.idle, 7#64, 4#64, [.out8 .statCmd 0x1F7#16 0xE7#8]) := by decide

/-! ### The arithmetic and the words -/

/-- RC1 to RC12. -/
theorem test_required_sectors :
    [(0, 0), (511, 0), (511, 1), (511, 2), (1, 511), (1, 512), (256, 256), (256, 257), (0, 130560), (1, 130559),
      (1, 130560), (511, 130049)].map (fun c => requiredSectors c.1 c.2) =
    [0, 0, 1, 2, 1, 2, 1, 2, 255, 255, 256, 255] := by decide
/-- CL5. -/
theorem test_word_classes : [0, 1, 2, 3, 4].map (fun w => wordClass (wordIndex 0 w 3) 4) =
    [.before, .straddleLow, .inside, .straddleHigh, .after] := by decide
/-- BT5: the register bytes of LBA `0x12345678`. -/
theorem test_register_bytes : (driveSelectByte 0x12345678#64, lbaLowByte 0x12345678#64, lbaMidByte 0x12345678#64,
    lbaHighByte 0x12345678#64) = (0xF2#8, 0x78#8, 0x56#8, 0x34#8) := by decide
/-- The scatter of `0xBBAA` by class (95_test_vectors.md). -/
theorem test_scatter : [(-1 : Int), -2, 4, 2, 3].map (fun i => scatter 0 i (if i = 4 then 6 else 3) 0xBBAA#16 []) =
    [some [(0, 0xBB#8)], some [], some [(4, 0xAA#8), (5, 0xBB#8)], some [(2, 0xAA#8)], some []] := by decide
/-- The merge by class: BEFORE, STRADDLE_LOW, INSIDE, STRADDLE_HIGH, AFTER (95_test_vectors.md). -/
theorem test_merge : [0#9, 1#9, 2#9, 3#9, 4#9].map (fun w => (mergeWord (writing .xfer w)).toOption) =
    [some 0x1122#16, some 0xA022#16, some 0x6655#16, some 0x3377#16, some 0x3344#16] := by decide
/-- R262: word 0 needs START_SNAP, whose flag is 0; word 4 END_SNAP, whose element 4 holds no value. -/
theorem test_unwritten : ((after (step (unwritten 0#9 false))).map (fun t => (t.seq, t.snapshotFault, t.trace)),
    (after (step (unwritten 4#9 true))).map (fun t => (t.seq, t.snapshotFault, t.trace))) =
    (some (.faulted, true, []), some (.faulted, true, [])) := by decide
/-- WR3: the second loop of `waitReady` tests bit 3 only; WB2: the first loop ends on `0x7F`. -/
theorem test_polls : (dataReady 0x88#8, dataReady 0xF7#8, busyClear 0x7F#8, busyClear 0x80#8) =
    (true, false, true, false) := by decide
/-- The example of R115: bytes `0x41`, `0x42` read as the word `0x4241`. -/
theorem test_reference_word : (RefDevice.in16 { RefDevice.fresh [(0, 0x41#8), (1, 0x42#8)] with phase := .pioIn 0#28 1 0 }).1 =
    0x4241#16 := by decide

/-! ### Witnesses: states and operands that meet the hypotheses of the statements, at the ends of their ranges -/

theorem witness_RequestWordMap : (0x00#8).toNat = 0 ∧ 9 ≤ (0x09#8).toNat ∧ 9 ≤ (0xFF#8).toNat := by decide

theorem witness_CommandByteMap : ∀ c ∈ [0x00#8, 0x1F#8, 0x21#8, 0xE6#8, 0xFF#8], c ≠ 0x20#8 ∧ c ≠ 0x30#8 ∧ c ≠ 0xE7#8 := by
  decide

theorem witness_EncodeDecodeAgree : Instr.wellFormedOn .req8 .init = true ∧ Instr.wellFormedOn .devcmd8 .cacheFlush = true ∧
    decodeOn .req8 0x08#8 = .ok .rsc ∧ decodeOn .devcmd8 0x20#8 = .ok .readSectors := by decide

theorem witness_CallerOrUnitMoves :
    (reading .xfer 0#9).callerQueue = [] ∧
    (demo 0#64 0#64 0#64 [.writeReq 0xFF#8]).callerQueue = .writeReq 0xFF#8 :: [] ∧
    (demo 0#64 0#64 0#64 [.yield]).callerQueue = .yield :: [] ∧
    ((transferAt 3 4 .read (.leg .read .bw) 0#16 0#9 false false [.awaitDone]).callerQueue = .awaitDone :: [] ∧
      (transferAt 3 4 .read (.leg .read .bw) 0#16 0#9 false false [.awaitDone]).busy = true) ∧
    ((demo 0#64 0#64 0#64 [.awaitDone]).callerQueue = .awaitDone :: [] ∧
      (demo 0#64 0#64 0#64 [.awaitDone]).busy = false) := by decide

theorem witness_StepRunsWrittenRequest :
    (demo 24#64 7#64 0#64 [.writeReq 0x02#8]).callerQueue = .writeReq 0x02#8 :: [] ∧
    decodeRequest 0x02#8 = .ok .seekAbs := by decide

theorem witness_StepRunsDueCommand :
    (dueCommand (reading .cmd 0#9).seq = some .readSectors ∧ (reading .cmd 0#9).callerQueue = []) ∧
    (dueCommand (transferAt 3 4 .write .flCmd 0#16 0#9 true true [.yield]).seq = some .cacheFlush ∧
      (transferAt 3 4 .write .flCmd 0#16 0#9 true true [.yield]).callerQueue = .yield :: []) ∧
    (dueCommand (transferAt 3 4 .write (.leg .write .cmd) 0#16 0#9 true true [.awaitDone]).seq = some .writeSectors ∧
      (transferAt 3 4 .write (.leg .write .cmd) 0#16 0#9 true true [.awaitDone]).callerQueue = .awaitDone :: [] ∧
      (transferAt 3 4 .write (.leg .write .cmd) 0#16 0#9 true true [.awaitDone]).busy = true) := by decide

theorem witness_PlacedWordRunsNext : decodeRequest (BitVec.ofNat 8 0x08) = .ok .rsc ∧
    decodeCommand (BitVec.ofNat 8 0xE7) = .ok .cacheFlush ∧ 0xE7 < 256 := by decide

/-- At the ends of SEEK.REL's range, and INIT's example of R96. -/
theorem witness_WrittenRequestPlacesOperands :
    (demo 0#64 0#64 0#64 (writtenMoves (.seekRel (-2 ^ 63)))).callerQueue = writtenMoves (.seekRel (-2 ^ 63)) ++ [] ∧
    (demo 0#64 0#64 0#64 (writtenMoves (.seekEnd (2 ^ 63 - 1)))).callerQueue = writtenMoves (.seekEnd (2 ^ 63 - 1)) ++ [] ∧
    writtenMoves (.init 0x1F0#16 0x3F6#16) = [.writeArg0 0x03F601F0#64, .writeReq 0x01#8, .awaitDone] := by decide

theorem witness_IllegalWordFaults : ((0x00#8).toNat = 0 ∧ 9 ≤ (0x09#8).toNat ∧ 9 ≤ (0xFF#8).toNat) ∧
    (demo 0#64 0#64 0#64 []).seq ≠ .faulted ∧ (demo 0#64 0#64 0#64 []).busy = false := by decide

/-- R256, checks 1 to 9; each state meets one clause's hypotheses, at the least value that fails the check. -/
theorem witness_AcceptanceCheckOrder :
    (broken []).seq = .faulted ∧
    ((reading .bw 0#9).seq ≠ .faulted ∧ (reading .bw 0#9).busy = true) ∧
    ((demo 0#64 0#64 0#64 []).seq ≠ .faulted ∧ (demo 0#64 0#64 0#64 []).busy = false ∧
      (decodeRequest 0x09#8).toOption = none) ∧
    (decodeRequest 0x01#8 = .ok .init ∧ (demo 0#64 0#64 0#64 []).inited = true) ∧
    (decodeRequest 0x08#8 = .ok .rsc ∧ (fresh 0#64 [] .absent).inited = false ∧ (fresh 0#64 [] .absent).busy = false) ∧
    ((fresh 0xFFF9#64 [] .absent).inited = false ∧ 0xFFF8 < ((fresh 0xFFF9#64 [] .absent).arg0.extractLsb' 0 16).toNat) ∧
    (decodeRequest 0x05#8 = .ok .read ∧
      2 ^ 64 - 1 < (demo 0xFFFFFFFFFFFFFFFF#64 0#64 1#64 []).pos.toNat + (demo 0#64 0#64 1#64 []).arg1.toNat) ∧
    (decodeRequest 0x06#8 = .ok .write ∧
      (demo 0#64 0xFFFFFFFFFFFFFFFF#64 2#64 []).pos.toNat + (demo 0#64 0#64 2#64 []).arg1.toNat ≤ 2 ^ 64 - 1 ∧
      2 ^ 64 < (demo 0#64 0xFFFFFFFFFFFFFFFF#64 2#64 []).arg0.toNat + (demo 0#64 0#64 2#64 []).arg1.toNat) ∧
    ((demo 0#64 0#64 130561#64 []).pos.toNat + (demo 0#64 0#64 130561#64 []).arg1.toNat ≤ 2 ^ 64 - 1 ∧
      (demo 0#64 0#64 130561#64 []).arg0.toNat + (demo 0#64 0#64 130561#64 []).arg1.toNat ≤ 2 ^ 64 ∧
      255 < requiredSectors (demo 0#64 0#64 130561#64 []).pos.toNat (demo 0#64 0#64 130561#64 []).arg1.toNat) := by
  decide

/-- The longest transfer (255 sectors), the least buffer end beyond which a check fails, and the length 0. -/
theorem fits_longest : (demo 0#64 0x2000#64 130560#64 []).TransferFits := ⟨by decide, by decide, by decide⟩
theorem fits_buffer_end : (demo 0#64 0xFFFFFFFFFFFFFFFF#64 1#64 []).TransferFits := ⟨by decide, by decide, by decide⟩
theorem fits_position_end : (demo 0xFFFFFFFFFFFFFFFE#64 0#64 1#64 []).TransferFits := ⟨by decide, by decide, by decide⟩
theorem fits_zero : (demo 0xFFFFFFFFFFFFFFFF#64 0#64 0#64 []).TransferFits := ⟨by decide, by decide, by decide⟩

theorem witness_TransferRegistersLatched :
    (demo 0#64 0x2000#64 130560#64 []).Ready ∧ (demo 0#64 0x2000#64 130560#64 []).TransferFits ∧
    (demo 0xFFFFFFFFFFFFFFFF#64 0#64 0#64 []).Ready ∧ (demo 0xFFFFFFFFFFFFFFFF#64 0#64 0#64 []).TransferFits :=
  ⟨demo_ready _ _ _ _, fits_longest, demo_ready _ _ _ _, fits_zero⟩

theorem witness_InitAccepted : (fresh 0xFFF8#64 [] .absent).Fresh ∧
    ((fresh 0xFFF8#64 [] .absent).arg0.extractLsb' 0 16).toNat ≤ 0xFFF8 := ⟨fresh_fresh _ _ _, by decide⟩

theorem witness_InitCreatesHandle :
    (fresh 0xFFF8#64 [.writeReq 0x01#8] (.oracle [0xFE#8] [] 0)).Fresh ∧
    (fresh 0xFFF8#64 [.writeReq 0x01#8] (.oracle [0xFE#8] [] 0)).callerQueue = [.writeReq 0x01#8] ∧
    ((fresh 0xFFF8#64 [.writeReq 0x01#8] (.oracle [0xFE#8] [] 0)).arg0.extractLsb' 0 16).toNat ≤ 0xFFF8 ∧
    ((fresh 0xFFF8#64 [.writeReq 0x01#8] (.oracle [0xFE#8] [] 0)).device.in8 .statCmd).1 ≠ 0xFF#8 :=
  ⟨fresh_fresh _ _ _, by decide, by decide, by decide⟩

theorem witness_InitFindsNoDevice :
    (fresh 0x03F601F0#64 [.writeReq 0x01#8] .absent).Fresh ∧
    (fresh 0x03F601F0#64 [.writeReq 0x01#8] .absent).callerQueue = [.writeReq 0x01#8] ∧
    ((fresh 0x03F601F0#64 [.writeReq 0x01#8] .absent).arg0.extractLsb' 0 16).toNat ≤ 0xFFF8 ∧
    ((fresh 0x03F601F0#64 [.writeReq 0x01#8] .absent).device.in8 .statCmd).1 = 0xFF#8 :=
  ⟨fresh_fresh _ _ _, by decide, by decide, by decide⟩

/-- Of `SeekAbsMovesCursor`, `SeekEndAlwaysFails`, `FlushDoesNothing` and `RscReturnsCount`: a state with a handle and
one without. -/
theorem witness_Ready_and_Fresh : (demo 445#64 0xFFFFFFFFFFFFFFFF#64 0#64 []).Ready ∧ (fresh 7#64 [] .absent).Fresh :=
  ⟨demo_ready _ _ _ _, fresh_fresh _ _ _⟩

theorem witness_SeekRelMovesOrFails :
    (demo 445#64 (BitVec.ofInt 64 (-445)) 0#64 []).Ready ∧
    (445#64).toNat + (BitVec.ofInt 64 (-445)).toInt = 0 ∧
    (0x8000000000000000#64).toNat + (0x7FFFFFFFFFFFFFFF#64).toInt = 2 ^ 64 - 1 ∧
    (445#64).toNat + (BitVec.ofInt 64 (-446)).toInt = -1 ∧
    (0xFFFFFFFFFFFFFFFF#64).toNat + (1#64).toInt = 2 ^ 64 ∧ (fresh 7#64 [] .absent).Fresh :=
  ⟨demo_ready _ _ _ _, by decide, by decide, by decide, by decide, fresh_fresh _ _ _⟩

theorem witness_SectorCountClosedForms : 0 < 1 ∧ 511 + 1 ≤ 512 * (511 / 512 + 1) ∧ requiredSectors 511 1 ≤ 1 := by decide

theorem witness_ReadAccepted : (demo 0#64 0xFFFFFFFFFFFFFFFF#64 1#64 []).Ready ∧
    (demo 0#64 0xFFFFFFFFFFFFFFFF#64 1#64 []).TransferFits ∧ 0 < (demo 0#64 0xFFFFFFFFFFFFFFFF#64 1#64 []).arg1.toNat :=
  ⟨demo_ready _ _ _ _, fits_buffer_end, by decide⟩

theorem witness_WriteAccepted : (demo 0xFFFFFFFFFFFFFFFE#64 0#64 1#64 []).Ready ∧
    (demo 0xFFFFFFFFFFFFFFFE#64 0#64 1#64 []).TransferFits ∧ 0 < (demo 0xFFFFFFFFFFFFFFFE#64 0#64 1#64 []).arg1.toNat :=
  ⟨demo_ready _ _ _ _, fits_position_end, by decide⟩

theorem witness_ZeroLengthTransfers : (demo 0xFFFFFFFFFFFFFFFF#64 0#64 0#64 []).Ready ∧
    (demo 0xFFFFFFFFFFFFFFFF#64 0#64 0#64 []).TransferFits ∧ (demo 0xFFFFFFFFFFFFFFFF#64 0#64 0#64 []).arg1 = 0#64 :=
  ⟨demo_ready _ _ _ _, fits_zero, rfl⟩

theorem witness_ReadSectorsIssued : (reading .cmd 0#9).seq = .run (.leg .read .cmd) ∧ Leg.read ≠ .write ∧
    (transferAt 3 4 .write (.leg .snapStart .cmd) 0#16 0#9 false false []).seq = .run (.leg .snapStart .cmd) ∧
    (transferAt 3 4 .write (.leg .snapEnd .cmd) 0#16 0#9 true false []).seq = .run (.leg .snapEnd .cmd) := by decide

theorem witness_WriteSectorsIssued : (writing .cmd 0#9).seq = .run (.leg .write .cmd) := rfl

theorem witness_CacheFlushCompletesWrite : (flushing .flCmd).seq = .run .flCmd := rfl

theorem witness_UndueCommandRefused : Instr.readSectors.format = .devcmd8 ∧
    dueCommand (demo 0#64 0#64 0#64 []).seq ≠ some .readSectors ∧
    dueCommand (writing .cmd 0#9).seq ≠ some .readSectors := by decide

theorem witness_BusyWaitTestsBitSeven :
    ((reading .bw 0#9).callerQueue = [] ∧ (reading .bw 0#9).seq = .run (.leg .read .bw) ∧
      busyWaitAt (.leg .read .bw) (.leg .read .sel)) ∧
    ((writing .wrBsy 0#9).seq = .run (.leg .write .wrBsy) ∧ busyWaitAt (.leg .write .wrBsy) (.leg .write .wrDrq)) ∧
    ((flushing .flBsy).seq = .run .flBsy ∧ busyWaitAt .flBsy .flCmd) :=
  ⟨⟨rfl, rfl, .inl ⟨_, rfl, rfl⟩⟩, ⟨rfl, .inr (.inl ⟨_, rfl, rfl⟩)⟩, rfl, .inr (.inr ⟨rfl, rfl⟩)⟩

theorem witness_ReadyWaitTestsBitThree :
    ((reading .wrBsy 0#9).callerQueue = [] ∧ (reading .wrBsy 0#9).seq = .run (.leg .read .wrBsy)) ∧
    (writing .wrDrq 0#9).callerQueue = [] ∧ (writing .wrDrq 0#9).seq = .run (.leg .write .wrDrq) := by decide

theorem witness_FloatingBusHangs :
    ({ reading .bw 0#9 with device := .absent } : State).callerQueue = [] ∧
    ({ reading .bw 0#9 with device := .absent } : State).seq = .run (.leg .read .bw) ∧
    busyWaitAt (.leg .read .bw) (.leg .read .sel) ∧ ({ reading .bw 0#9 with device := .absent } : State).device = .absent :=
  ⟨rfl, rfl, .inl ⟨_, rfl, rfl⟩, rfl⟩

theorem witness_ProgrammingSequence :
    ((reading .bw 0#9).callerQueue = [] ∧ (reading .bw 0#9).seq = .run (.leg .read .bw) ∧
      ((reading .bw 0#9).device.in8 .statCmd).1.getLsbD 7 = false) ∧
    ((transferAt 3 4 .write (.leg .snapEnd .bw) 0#16 0#9 true false []).seq = .run (.leg .snapEnd .bw) ∧
      ((transferAt 3 4 .write (.leg .snapEnd .bw) 0#16 0#9 true false []).device.in8 .statCmd).1.getLsbD 7 = false) := by
  decide

theorem witness_PortAddressesExact : (demo 0#64 0#64 0#64 []).Inv := demo_inv _ _ _ _

/-- Each kind of transaction: a control write, a status read, a register write, a data read and a data write. -/
theorem witness_OnlyLawfulTransactions :
    (∃ t, (initAt .initControl .absent).Inv ∧ step (initAt .initControl .absent) = .next t ∧ t.trace ≠ []) ∧
    (∃ t, (reading .cmd 0#9).Inv ∧ step (reading .cmd 0#9) = .next t ∧ t.trace ≠ []) ∧
    (∃ t, (reading .xfer 0#9).Inv ∧ step (reading .xfer 0#9) = .next t ∧ t.trace ≠ []) ∧
    (∃ t, (writing .xfer 0#9).Inv ∧ step (writing .xfer 0#9) = .next t ∧ t.trace ≠ []) ∧
    ∃ t, (demo 0#64 0#64 0#64 []).Inv ∧ step (demo 0#64 0#64 0#64 []) = .next t ∧ t.trace = [] :=
  ⟨⟨_, initAt_inv _ _ trivial (.inr rfl), rfl, nofun⟩, ⟨_, reading_cmd_inv, rfl, nofun⟩,
    ⟨_, reading_inv _ (by decide), rfl, nofun⟩, ⟨_, writing_inv _ (by decide), rfl, nofun⟩,
    ⟨_, demo_inv _ _ _ _, rfl, rfl⟩⟩

/-- R166: one index of each class, the ends of the ranges. -/
theorem witness_WordClassTable : [-1, -2, 0, 2, 3, 4].map (fun i : Int => wordClass i 4) =
    [.straddleLow, .before, .inside, .inside, .straddleHigh, .after] := by decide

theorem witness_WordClassesAtTheEnds : 0 < 1 ∧ 0 < requiredSectors 511 1 ∧ 255 < 256 ∧ (511 + 1) % 512 = 0 ∧
    (510 + 1) % 512 ≠ 0 := by decide

/-- A word of each class of READ. -/
theorem witness_ReadWordLandsInBuffer : ∀ w : BitVec 9, w ∈ [0#9, 1#9, 2#9, 3#9, 4#9, 255#9] →
    (reading .xfer w).Inv ∧ (reading .xfer w).callerQueue = [] ∧ (reading .xfer w).seq = .run (.leg .read .xfer) := by
  intro w hw
  refine ⟨reading_inv w ?_, rfl, rfl⟩
  simp only [List.mem_cons, List.not_mem_nil, or_false] at hw
  rcases hw with rfl | rfl | rfl | rfl | rfl | rfl <;> decide

/-- The first and the last word of each snapshot. -/
theorem witness_SnapshotWordKept :
    ((snappingStart 0#9).Inv ∧ (snappingStart 0#9).seq = .run (.leg .snapStart .xfer)) ∧
    ((snappingStart 255#9).Inv ∧ (snappingStart 255#9).callerQueue = []) ∧
    ((snappingEnd 0#9).Inv ∧ (snappingEnd 0#9).seq = .run (.leg .snapEnd .xfer)) ∧
    (snappingEnd 255#9).Inv ∧ (snappingEnd 255#9).callerQueue = [] :=
  ⟨⟨snappingStart_inv _ (by decide), rfl⟩, ⟨snappingStart_inv _ (by decide), rfl⟩,
    ⟨snappingEnd_inv _ (by decide), rfl⟩, snappingEnd_inv _ (by decide), rfl⟩

/-- A word of each class of WRITE. -/
theorem witness_MergedWordPushed : ∀ w : BitVec 9, w ∈ [0#9, 1#9, 2#9, 3#9, 4#9, 255#9] →
    (writing .xfer w).Inv ∧ (writing .xfer w).callerQueue = [] ∧ (writing .xfer w).seq = .run (.leg .write .xfer) := by
  intro w hw
  refine ⟨writing_inv w ?_, rfl, rfl⟩
  simp only [List.mem_cons, List.not_mem_nil, or_false] at hw
  rcases hw with rfl | rfl | rfl | rfl | rfl | rfl <;> decide

/-- Its three clauses: a word before the last, the last of a sector before the last, the last of all; and WRITE's last. -/
theorem witness_DataPhaseOrder :
    (∃ t, (crossing 0#16 254#9).Inv ∧ step (crossing 0#16 254#9) = .next t ∧ (254#9).toNat < 255) ∧
    (∃ t, (crossing 0#16 255#9).Inv ∧ step (crossing 0#16 255#9) = .next t ∧ (crossing 0#16 255#9).loopS.toNat + 1 <
      (crossing 0#16 255#9).tSect.toNat) ∧
    (∃ t, (crossing 1#16 255#9).Inv ∧ step (crossing 1#16 255#9) = .next t ∧ (crossing 1#16 255#9).loopS.toNat + 1 =
      (crossing 1#16 255#9).tSect.toNat) ∧
    ∃ t, (writing .xfer 255#9).Inv ∧ step (writing .xfer 255#9) = .next t :=
  ⟨⟨_, crossing_inv _ _ (by decide) (by decide), rfl, by decide⟩, ⟨_, crossing_inv _ _ (by decide) (by decide), rfl, by decide⟩,
    ⟨_, crossing_inv _ _ (by decide) (by decide), rfl, by decide⟩, ⟨_, writing_inv _ (by decide), rfl⟩⟩

/-- START_SNAP's flag 0 at the first word and at the one across the start; END_SNAP's element empty at the word across the end
and at the last. -/
theorem witness_UnwrittenElementEntersFaulted :
    ((unwritten 0#9 false).callerQueue = [] ∧ (unwritten 0#9 false).seq = .run (.leg .write .xfer) ∧
      (unwritten 0#9 false).unwrittenElement) ∧
    (unwritten 1#9 false).unwrittenElement ∧ (unwritten 3#9 true).unwrittenElement ∧
    (unwritten 255#9 true).unwrittenElement :=
  ⟨⟨rfl, rfl, .inl ⟨.inr (by decide), by decide⟩⟩, .inl ⟨.inl (by decide), by decide⟩,
    .inr ⟨.inl (by decide), by decide⟩, .inr ⟨.inr (by decide), by decide⟩⟩

theorem witness_HardwareResetEffect :
    (transferAt 3 4 .read (.leg .read .xfer) 0#16 2#9 false false [.hardReset]).callerQueue = .hardReset :: [] ∧
    ∃ t, (broken [.hardReset]).seq = .faulted ∧ step (broken [.hardReset]) = .next t ∧ t.seq ≠ .faulted :=
  ⟨rfl, _, rfl, rfl, nofun⟩

/-- Two entries: a word in the caller's write, and INIT's status read. -/
theorem witness_FaultEntryEffect :
    (∃ t, (demo 3#64 0#64 0#64 [.writeReq 0x00#8]).Inv ∧ step (demo 3#64 0#64 0#64 [.writeReq 0x00#8]) = .next t ∧
      (demo 3#64 0#64 0#64 [.writeReq 0x00#8]).seq ≠ .faulted ∧ t.seq = .faulted) ∧
    ∃ t, (initAt .initStatus .absent).Inv ∧ step (initAt .initStatus .absent) = .next t ∧
      (initAt .initStatus .absent).seq ≠ .faulted ∧ t.seq = .faulted :=
  ⟨⟨_, demo_inv _ _ _ _, rfl, nofun, rfl⟩, ⟨_, initAt_inv _ _ trivial (.inl rfl), rfl, nofun, rfl⟩⟩

theorem witness_FaultedIsFinal :
    (∃ t, (broken [.writeReq 0x05#8, .yield]).seq = .faulted ∧
      CallerMove.hardReset ∉ (broken [.writeReq 0x05#8, .yield]).callerQueue ∧
      steps 2 (broken [.writeReq 0x05#8, .yield]) = .next t) ∧
    (broken [.writeArg0 7#64]).callerQueue = .writeArg0 7#64 :: [] ∧
    (broken [.writeArg1 7#64]).callerQueue = .writeArg1 7#64 :: [] ∧
    (broken [.readReg .ustat]).callerQueue = .readReg .ustat :: [] :=
  ⟨⟨_, rfl, by decide, rfl⟩, rfl, rfl, rfl⟩

/-- Its ends: INIT's, a READ's and a WRITE's. -/
theorem witness_CompletionEffect :
    (∃ t, (initAt .initControl .absent).Inv ∧ step (initAt .initControl .absent) = .next t ∧
      (initAt .initControl .absent).resetNext = false ∧ (initAt .initControl .absent).busy = true ∧ t.busy = false ∧
      t.seq ≠ .faulted) ∧
    (∃ t, (reading .xfer 255#9).Inv ∧ step (reading .xfer 255#9) = .next t ∧ (reading .xfer 255#9).resetNext = false ∧
      (reading .xfer 255#9).busy = true ∧ t.busy = false ∧ t.seq ≠ .faulted) ∧
    ∃ t, (flushing .flCmd).Inv ∧ step (flushing .flCmd) = .next t ∧ (flushing .flCmd).resetNext = false ∧
      (flushing .flCmd).busy = true ∧ t.busy = false ∧ t.seq ≠ .faulted :=
  ⟨⟨_, initAt_inv _ _ trivial (.inr rfl), rfl, rfl, by decide, by decide, nofun⟩,
    ⟨_, reading_inv _ (by decide), rfl, rfl, by decide, by decide, nofun⟩,
    ⟨_, flushing_inv _ (.inr rfl), rfl, rfl, by decide, by decide, nofun⟩⟩

theorem witness_RegistersSteadyWhileBusy :
    ∃ t, (reading .xfer 2#9).Inv ∧ step (reading .xfer 2#9) = .next t ∧ (reading .xfer 2#9).resetNext = false ∧
      (reading .xfer 2#9).busy = true ∧ t.busy = true :=
  ⟨_, reading_inv _ (by decide), rfl, rfl, by decide, by decide⟩

theorem witness_SeqTransitions :
    (∃ t, (fresh 0x01F0#64 [.writeReq 0x01#8] .absent).Inv ∧ step (fresh 0x01F0#64 [.writeReq 0x01#8] .absent) = .next t ∧
      t.seq = .run .initStatus) ∧
    (∃ t, (fresh 0#64 [.writeReq 0x05#8] .absent).Inv ∧ step (fresh 0#64 [.writeReq 0x05#8] .absent) = .next t ∧
      t.seq = .faulted) ∧
    (∃ t, (demo 1#64 0#64 1#64 [.writeReq 0x06#8]).Inv ∧ step (demo 1#64 0#64 1#64 [.writeReq 0x06#8]) = .next t ∧
      t.seq = .run (.leg .snapStart .bw)) ∧
    (∃ t, (demo 0#64 0#64 0#64 [.writeReq 0x01#8]).Inv ∧ step (demo 0#64 0#64 0#64 [.writeReq 0x01#8]) = .next t ∧
      t.seq = .faulted) ∧
    (∃ t, (snappingStart 255#9).Inv ∧ step (snappingStart 255#9) = .next t ∧ t.seq = .run (.leg .snapEnd .bw)) ∧
    (∃ t, (flushing .flCmd).Inv ∧ step (flushing .flCmd) = .next t ∧ t.seq = .idle) ∧
    ∃ t, (initAt .initStatus .absent).Inv ∧ step (initAt .initStatus .absent) = .next t ∧ t.seq = .faulted :=
  ⟨⟨_, fresh_inv _ _ _ trivial, rfl, rfl⟩, ⟨_, fresh_inv _ _ _ trivial, rfl, rfl⟩, ⟨_, demo_inv _ _ _ _, rfl, rfl⟩,
    ⟨_, demo_inv _ _ _ _, rfl, rfl⟩, ⟨_, snappingStart_inv _ (by decide), rfl, rfl⟩,
    ⟨_, flushing_inv _ (.inr rfl), rfl, rfl⟩, ⟨_, initAt_inv _ _ trivial (.inl rfl), rfl, rfl⟩⟩

theorem witness_OnlyInitWritesBases :
    ∃ t, (fresh 0x03F601F0#64 [.writeReq 0x01#8] .absent).Inv ∧
      step (fresh 0x03F601F0#64 [.writeReq 0x01#8] .absent) = .next t ∧
      (fresh 0x03F601F0#64 [.writeReq 0x01#8] .absent).resetNext = false ∧
      ¬ (fresh 0x03F601F0#64 [.writeReq 0x01#8] .absent).sameBases t :=
  ⟨_, fresh_inv _ _ _ trivial, rfl, rfl, fun h => absurd h.1 (by decide)⟩

theorem witness_OnlyReadWritesItsBuffer :
    ∃ t, (reading .xfer 2#9).Inv ∧ step (reading .xfer 2#9) = .next t ∧ (reading .xfer 2#9).memMoveNext = none ∧
      t.mem.get 0x2001 ≠ (reading .xfer 2#9).mem.get 0x2001 :=
  ⟨_, reading_inv _ (by decide), rfl, rfl, by decide⟩

theorem witness_CallerRegisterMoves :
    (∀ r ∈ [CallerReg.cmdBase, .ctlBase, .pos, .ustat, .req, .arg0, .arg1, .result],
      (demo 0#64 0#64 0#64 [.readReg r]).callerQueue = .readReg r :: []) ∧
    (demo 0#64 0#64 0#64 [.writeArg0 1#64]).callerQueue = .writeArg0 1#64 :: [] ∧
    (demo 0#64 0#64 0#64 [.writeArg1 1#64]).callerQueue = .writeArg1 1#64 :: [] := ⟨fun _ _ => rfl, rfl, rfl⟩

/-- Inside the buffer `0x2000 .. 0x2003` at both ends, and just outside it. -/
theorem witness_CallerMemoryMoves :
    (touching [.writeMem 0x2000#64 1#8]).callerQueue = .writeMem 0x2000#64 1#8 :: [] ∧
    (touching []).mem.wf = true ∧
    ownedByUnit (touching [.writeMem 0x2000#64 1#8]) 0x2000 = true ∧
    ownedByUnit (touching [.readMem 0x2003#64]) 0x2003 = true ∧
    ownedByUnit (touching [.writeMem 0x1FFF#64 1#8]) 0x1FFF = false ∧
    ownedByUnit (touching [.readMem 0x2004#64]) 0x2004 = false := by decide

theorem witness_UstatLegalValues : (demo 0#64 0#64 0#64 []).Inv ∧ (fresh 0#64 [] .absent).Inv ∧
    (reading .xfer 0#9).Inv ∧ (broken []).Inv ∧ (initAt .initControl .absent).Inv :=
  ⟨demo_inv _ _ _ _, fresh_inv _ _ _ trivial, reading_inv _ (by decide), broken_inv _, initAt_inv _ _ trivial (.inr rfl)⟩

theorem witness_StepKeepsLegalStates :
    (∃ t, (writing .xfer 1#9).Inv ∧ step (writing .xfer 1#9) = .next t) ∧
    (∃ t, (demo 0#64 0#64 0#64 [.writeReq 0x01#8]).Inv ∧ step (demo 0#64 0#64 0#64 [.writeReq 0x01#8]) = .next t) :=
  ⟨⟨_, writing_inv _ (by decide), rfl⟩, ⟨_, demo_inv _ _ _ _, rfl⟩⟩

/-- Its two cases. -/
theorem witness_LegalStatesDoNotStop :
    (∃ t, (writing .xfer 3#9).Inv ∧ step (writing .xfer 3#9) = .next t ∧ t.snapshotFault = false) ∧
    (touching [.writeMem 0x2003#64 1#8]).Inv ∧
    step (touching [.writeMem 0x2003#64 1#8]) = .refused .ownershipBroken :=
  ⟨⟨_, writing_inv _ (by decide), rfl, rfl⟩, touching_inv _, rfl⟩

/-- One byte, the last of a sector, into the last byte of caller memory. -/
theorem witness_ReadReturnsDeviceBytes :
    (attached 511#64 0xFFFFFFFFFFFFFFFF#64 1#64 [.writeReq 0x05#8]).Inv ∧
    (attached 511#64 0xFFFFFFFFFFFFFFFF#64 1#64 [.writeReq 0x05#8]).seq = .idle ∧
    (attached 511#64 0xFFFFFFFFFFFFFFFF#64 1#64 [.writeReq 0x05#8]).device =
      .present (RefDevice.fresh [(0, 0x41#8), (1, 0x42#8)]) ∧
    (RefDevice.fresh [(0, 0x41#8), (1, 0x42#8)]).phase = .idle ∧
    0 < (attached 511#64 0xFFFFFFFFFFFFFFFF#64 1#64 [.writeReq 0x05#8]).arg1.toNat ∧
    (attached 511#64 0xFFFFFFFFFFFFFFFF#64 1#64 [.writeReq 0x05#8]).TransferFits :=
  ⟨attached_inv _ _ _ _, rfl, rfl, rfl, by decide, ⟨by decide, by decide, by decide⟩⟩

/-- Both ends unaligned, and both aligned with 255 sectors. -/
theorem witness_WritePreservesOtherBytes :
    (attached 3#64 0x2000#64 4#64 [.writeReq 0x06#8]).Inv ∧
    (attached 3#64 0x2000#64 4#64 [.writeReq 0x06#8]).seq = .idle ∧
    (attached 3#64 0x2000#64 4#64 [.writeReq 0x06#8]).TransferFits ∧
    (attached 0#64 0x2000#64 130560#64 [.writeReq 0x06#8]).Inv ∧
    (attached 0#64 0x2000#64 130560#64 [.writeReq 0x06#8]).TransferFits ∧
    (attached 0#64 0x2000#64 130560#64 [.writeReq 0x06#8]).device =
      .present (RefDevice.fresh [(0, 0x41#8), (1, 0x42#8)]) ∧
    0 < (attached 0#64 0x2000#64 130560#64 [.writeReq 0x06#8]).arg1.toNat :=
  ⟨attached_inv _ _ _ _, rfl, ⟨by decide, by decide, by decide⟩, attached_inv _ _ _ _,
    ⟨by decide, by decide, by decide⟩, rfl, by decide⟩

end Sys2Proof.Machine.Tests
end

section
/-! PROOFS. Whose move a step is: what `step` runs for each head of the caller's queue (R8, R39, R40; log entries 1
and 25). -/

namespace Sys2Proof.Machine

/-- The empty queue leaves the step to the unit (log entry 1). -/
theorem step_of_callerQueue_nil {s : State} (hq : s.callerQueue = []) : step s = unitStep s := by
  unfold step turn; rw [hq]

/-- A step with a move to come is that move, taken off the queue (log entry 1). -/
theorem step_of_callerQueue_cons {s : State} {m : CallerMove} {rest : List CallerMove}
    (hq : s.callerQueue = m :: rest) : step s = callerMove m s (setQueue rest s) := by
  unfold step turn; rw [hq]

@[simp] theorem setQueue_busy (q : List CallerMove) (s : State) : (setQueue q s).busy = s.busy := rfl

/-- A poll at BUSY=1 lets the unit step and stays to come (log entry 25). -/
theorem awaitDone_of_busy {again s : State} (hb : s.busy = true) : awaitDone again s = unitStep again :=
  if_pos hb

/-- A poll at BUSY=0 is done. -/
theorem awaitDone_of_not_busy {again s : State} (hb : s.busy = false) : awaitDone again s = .next s :=
  if_neg (Bool.eq_false_iff.mp hb)

/-- Settles O4: each head of the queue selects its own branch of `callerMove`, and taking a move off the queue leaves
BUSY as it was. -/
theorem callerOrUnitMoves : Obligations.CallerOrUnitMoves := by
  intro s
  refine ⟨step_of_callerQueue_nil, fun rest => ⟨?writeReq, ?yield, ?pollBusy, ?pollDone⟩⟩
  case writeReq => exact fun _ hq => step_of_callerQueue_cons hq
  case yield => exact fun hq => step_of_callerQueue_cons hq
  case pollBusy =>
    intro hq hb
    have hrest : (setQueue rest s).busy = true := (setQueue_busy rest s).trans hb
    exact (step_of_callerQueue_cons hq).trans (awaitDone_of_busy hrest)
  case pollDone =>
    intro hq hb
    have hrest : (setQueue rest s).busy = false := (setQueue_busy rest s).trans hb
    exact (step_of_callerQueue_cons hq).trans (awaitDone_of_not_busy hrest)

end Sys2Proof.Machine
end

section
/-! PROOFS. The legal states (R25, R30 to R35, R167): each request, each point of a running request and each move of the
caller keeps the invariant, so every step does. -/

namespace Sys2Proof.Machine

variable {s t : State}

/-! ### What the body of the invariant speaks of -/

/-- The body of the invariant reads none of the registers R30 latches. -/
theorem State.BodyInv.latchTransfer (h : s.BodyInv) (op : TransferOp) : (latchTransfer op s).BodyInv :=
  ⟨h.memWf, h.memBelow, h.device, h.base, h.startFull, h.endFull, h.snapshotFault⟩

theorem State.BodyInv.clearSnaps (h : s.BodyInv) : (clearSnaps s).BodyInv :=
  ⟨h.memWf, h.memBelow, h.device, h.base, nofun, nofun, h.snapshotFault⟩

theorem State.BodyInv.setPos (h : s.BodyInv) (p : Word64) : (setPos p s).BodyInv :=
  ⟨h.memWf, h.memBelow, h.device, h.base, h.startFull, h.endFull, h.snapshotFault⟩

theorem State.BodyInv.setInited (h : s.BodyInv) : (setInited s).BodyInv :=
  ⟨h.memWf, h.memBelow, h.device, h.base, h.startFull, h.endFull, h.snapshotFault⟩

theorem State.BodyInv.setBases (h : s.BodyInv) {cmd : Word16} (hc : cmd.toNat ≤ 0xFFF8) (ctl : Word16) :
    (setBases cmd ctl s).BodyInv :=
  ⟨h.memWf, h.memBelow, h.device, hc, h.startFull, h.endFull, h.snapshotFault⟩

/-! ### Acceptance -/

/-- What INIT fulfils past its checks (R256). -/
theorem initFault_none (h : initFault s = none) : s.inited = false ∧ (initCmdBase s.arg0).toNat ≤ 0xFFF8 := by
  unfold initFault at h
  split at h
  · cases h
  · split at h
    · cases h
    · exact ⟨by simpa using ‹¬ s.inited = true›, by simpa [Config.maxCmdBase] using ‹¬ _ > Config.maxCmdBase›⟩

/-- The reserved bits and ERR of an accepted request (R39, R24; log entry 14). -/
theorem accepted_status (h : s.Inv) (hf : s.faultFlag = false) (i : Instr) :
    ustatReserved (accepted i s).ustat = 0#5 ∧ errOk false (accepted i s).err := by
  have herr := h.status.err
  rw [hf] at herr
  exact ⟨by simp, by simpa using herr⟩

/-- A moved cursor completes the seek (R140, R141). -/
theorem inv_moveCursor (h : s.BodyInv) (hi : s.inited = true) (hf : s.faultFlag = false) (p : Word64) :
    (moveCursor p s).Inv :=
  inv_completeOk (h.setPos p) hi hf p

/-- SEEK.REL past its checks: an error result or a moved cursor (R141). -/
theorem inv_seekRelBody (h : s.BodyInv) (hi : s.inited = true) (hf : s.faultFlag = false) : (seekRelBody s).Inv := by
  unfold seekRelBody
  split
  · exact inv_completeErr h hi hf _
  · exact inv_moveCursor h hi hf _

/-- READ's point after its acceptance is legal (R200). -/
theorem pointOk_read_bw (h : (latchTransfer .read s).TransferOk) :
    pointOk (.run (.leg .read .bw)) (latchTransfer .read s) :=
  ⟨rfl, h, trivial, trivial⟩

/-- After the start snapshot WRITE goes to a legal point: the end snapshot's flag is to be set just when the end is
unaligned (R222). -/
theorem pointOk_afterStartSnap (hop : s.tOp = .write) (ht : s.TransferOk)
    (hs : s.haveStart = decide (s.tOff.toNat ≠ 0)) (he : s.haveEnd = false) :
    pointOk (.run (afterStartSnap s)) s := by
  unfold afterStartSnap
  split
  next hend => exact ⟨hop, ht, trivial, hend, hs, he, fun k hk => absurd hk (Nat.not_lt_zero k)⟩
  next hend => exact ⟨hop, ht, trivial, hs, by rw [he, decide_eq_false hend]⟩

/-- WRITE's first point is legal (R220, R221). -/
theorem pointOk_firstWritePoint (hop : s.tOp = .write) (ht : s.TransferOk) (hs : s.haveStart = false)
    (he : s.haveEnd = false) : pointOk (.run (firstWritePoint s)) s := by
  unfold firstWritePoint
  split
  next hoff =>
    exact ⟨hop, ht, trivial, (BitVec.toNat_pos_of_ne_zero hoff).ne', hs, he, fun k hk => absurd hk (Nat.not_lt_zero k)⟩
  next hoff =>
    have hzero : s.tOff.toNat = 0 := by rw [not_not.1 hoff]; rfl
    exact pointOk_afterStartSnap hop ht (by simp [hs, hzero]) he

/-- WRITE's points all come with a handle (R35). -/
theorem initFlagOk_afterStartSnap (s : State) : initFlagOk (.run (afterStartSnap s)) true := by
  unfold afterStartSnap; split <;> rfl

/-- WRITE begins with a handle (R35). -/
theorem initFlagOk_firstWritePoint (s : State) : initFlagOk (.run (firstWritePoint s)) true := by
  unfold firstWritePoint; split
  · rfl
  · exact initFlagOk_afterStartSnap s

/-- `INIT` (R130): check 6 keeps the base below the wrap of R110. -/
theorem inv_execInit (h : s.Inv) : (request .init beginInit s).Inv := by
  refine inv_request .init _ h fun hseq _ hacc => ?_
  obtain ⟨hinit, hbase⟩ := initFault_none hacc
  have hflag := notFaulted_flag h hseq
  obtain ⟨hres, herr⟩ := accepted_status h hflag .init
  exact inv_goPoint ((accepted_body h.body .init).setBases hbase _) hres (accepted_busy s .init)
    ((accepted_faultFlag s .init).trans hflag) herr .initStatus ((accepted_inited s .init).trans hinit) trivial

/-- `READ` (R200). -/
theorem inv_execRead (h : s.Inv) : (request .read readBody s).Inv := by
  refine inv_request .read _ h fun hseq _ hacc => ?_
  obtain ⟨hinit, hend, hbuf, hsect⟩ := transferFault_none hacc
  have hflag := notFaulted_flag h hseq
  obtain ⟨hres, herr⟩ := accepted_status h hflag .read
  have hbody := (accepted_body h.body .read).latchTransfer .read
  have hinit' : (accepted .read s).inited = true := (accepted_inited s .read).trans hinit
  have hflag' : (accepted .read s).faultFlag = false := (accepted_faultFlag s .read).trans hflag
  unfold readBody
  split
  next => exact inv_completeOk hbody hinit' hflag' _
  next hlen =>
    exact inv_goPoint hbody hres (accepted_busy s .read) hflag' herr _ hinit'
      (pointOk_read_bw (latchTransfer_ok .read (BitVec.toNat_pos_of_ne_zero hlen) hend hbuf hsect))

/-- `WRITE` (R220). -/
theorem inv_execWrite (h : s.Inv) : (request .write writeBody s).Inv := by
  refine inv_request .write _ h fun hseq _ hacc => ?_
  obtain ⟨hinit, hend, hbuf, hsect⟩ := transferFault_none hacc
  have hflag := notFaulted_flag h hseq
  obtain ⟨hres, herr⟩ := accepted_status h hflag .write
  have hbody := ((accepted_body h.body .write).latchTransfer .write).clearSnaps
  have hinit' : (accepted .write s).inited = true := (accepted_inited s .write).trans hinit
  have hflag' : (accepted .write s).faultFlag = false := (accepted_faultFlag s .write).trans hflag
  unfold writeBody
  split
  next => exact inv_completeOk hbody hinit' hflag' _
  next hlen =>
    have hok : (latchWrite (accepted .write s)).TransferOk :=
      (latchTransfer_ok .write (BitVec.toNat_pos_of_ne_zero hlen) hend hbuf hsect).congr rfl rfl rfl rfl rfl rfl rfl
    refine inv_goPoint hbody hres (accepted_busy s .write) hflag' herr _ ?_ (pointOk_firstWritePoint rfl hok rfl rfl)
    exact hinit'.symm ▸ initFlagOk_firstWritePoint _

/-- A request that, with a handle and no fault, completes in its acceptance step (R40). -/
theorem inv_request_completes (i : Instr) (body : State → State) (h : s.Inv)
    (hacc : acceptFault i s = none → s.inited = true)
    (hbody : ∀ u : State, u.BodyInv → u.inited = true → u.faultFlag = false → (body u).Inv) :
    (request i body s).Inv :=
  inv_request i body h fun hseq _ ha =>
    hbody _ (accepted_body h.body i) ((accepted_inited s i).trans (hacc ha))
      ((accepted_faultFlag s i).trans (notFaulted_flag h hseq))

/-! ### The steps of INIT -/

/-- INIT's status read: DEVICE_ABSENT or the control write next (R130, R95). -/
theorem inv_initStatusStep (h : s.Inv) (hs : s.seq = .run .initStatus) : (initStatusStep s).Inv := by
  have hinit := (running_facts h hs).2.2.1
  unfold initStatusStep
  split
  · exact inv_raiseFault (inv_portIn8 h _).body _
  · exact inv_go (inv_portIn8 h _) hs hinit trivial

/-- INIT's control write completes it with a handle (R130, R282). -/
theorem inv_initControlStep (h : s.Inv) (hs : s.seq = .run .initControl) : (initControlStep s).Inv := by
  have hbody := (inv_portOut8 h .ctl deviceControlByte).body
  have hflag : s.faultFlag = false := (running_facts h hs).2.1
  exact inv_completeOk (hbody.setPos _).setInited (setInited_inited _) ((setInited_faultFlag _).trans hflag) _

/-! ### The required sector count against a transfer's bytes -/

/-- A transfer of at least one byte has a sector (R162). -/
theorem requiredSectors_pos {l : Nat} (p : Nat) (hl : 0 < l) : 0 < requiredSectors p l := by
  unfold requiredSectors
  dsimp only
  split_ifs <;> omega

/-- A transfer that ends on a sector's end fills its sectors from the offset on (R162). -/
theorem requiredSectors_of_aligned_end {p l : Nat} (hl : 0 < l) (h : (p + l) % 512 = 0) :
    512 * requiredSectors p l = p % 512 + l := by
  unfold requiredSectors
  dsimp only
  split_ifs <;> omega

/-! ### The merge finds its snapshot words -/

/-- A word that begins before the buffer lies in front of an unaligned cursor (R166, R167). -/
theorem off_ne_zero_of_wordIndex_neg {a w off : Nat} (h : wordIndex a w off < 0) : off ≠ 0 := by
  unfold wordIndex at h
  omega

/-- STRADDLE_LOW and BEFORE are the classes of the words that begin before the buffer (R166). -/
theorem idx_neg_of_wordClass {idx : Int} {l : Nat} (h : wordClass idx l = .straddleLow ∨ wordClass idx l = .before) :
    idx < 0 := by
  by_contra hge
  rw [wordClass, if_neg (by omega), if_neg (by omega)] at h
  split_ifs at h <;> simp at h

/-- STRADDLE_HIGH and AFTER are the classes of the words that end past the buffer (R166). -/
theorem le_idx_succ_of_wordClass {idx : Int} {l : Nat} (h : wordClass idx l = .straddleHigh ∨ wordClass idx l = .after) :
    (l : Int) ≤ idx + 1 := by
  by_contra hlt
  unfold wordClass at h
  rw [if_pos (show idx + 1 < l by omega)] at h
  split_ifs at h <;> simp at h

/-- A full snapshot whose flag is set gives the merge its word (R33). -/
theorem startWord_of_full (hh : s.haveStart = true) (hf : s.startSnap.filledTo 256) (hw : s.loopW.toNat < 256) :
    ∃ v, startWord s = .ok v := by
  obtain ⟨v, hv⟩ := snapElem_full hf hw
  exact ⟨v, by rw [startWord, hh, hv]⟩

/-- So does END_SNAP (R33). -/
theorem endWord_of_full (hh : s.haveEnd = true) (hf : s.endSnap.filledTo 256) (hw : s.loopW.toNat < 256) :
    ∃ v, endWord s = .ok v := by
  obtain ⟨v, hv⟩ := snapElem_full hf hw
  exact ⟨v, by rw [endWord, hh, hv]⟩

/-- A buffer byte the merge does not find is one outside caller memory (R51). -/
theorem bufferByte_ne_unwritten (s : State) (i : Nat) : bufferByte s i ≠ .error .unwrittenSnapshot := by
  unfold bufferByte
  split <;> simp

/-- The merge reads START_SNAP for the words that begin before the buffer, END_SNAP for those that end past it (R225). -/
theorem mergeWord_ne_unwritten (hstart : s.wordCls = .straddleLow ∨ s.wordCls = .before → ∃ v, startWord s = .ok v)
    (hend : s.wordCls = .straddleHigh ∨ s.wordCls = .after → ∃ v, endWord s = .ok v) :
    mergeWord s ≠ .error .unwrittenSnapshot := by
  unfold mergeWord
  cases hc : s.wordCls with
  | straddleLow =>
    obtain ⟨v, hv⟩ := hstart (.inl hc)
    have hb := bufferByte_ne_unwritten s 0
    cases hx : bufferByte s 0 <;> simp_all
  | before =>
    obtain ⟨v, hv⟩ := hstart (.inr hc)
    simp [hv]
  | inside =>
    have hlo := bufferByte_ne_unwritten s s.wordIdx.toNat
    have hhi := bufferByte_ne_unwritten s (s.wordIdx.toNat + 1)
    cases hx : bufferByte s s.wordIdx.toNat <;> cases hy : bufferByte s (s.wordIdx.toNat + 1) <;> simp_all
  | straddleHigh =>
    obtain ⟨v, hv⟩ := hend (.inl hc)
    have hb := bufferByte_ne_unwritten s s.wordIdx.toNat
    cases hx : bufferByte s s.wordIdx.toNat <;> simp_all
  | after =>
    obtain ⟨v, hv⟩ := hend (.inr hc)
    simp [hv]

/-- A word of the data phase that ends past the buffer lies behind an unaligned end (R166, R167). -/
theorem tEnd_unaligned_of_wordClass (ht : s.TransferOk) (hw : s.loopW.toNat < 256)
    (hsec : s.loopS.toNat < s.tSect.toNat) (hc : s.wordCls = .straddleHigh ∨ s.wordCls = .after) :
    s.tEnd.toNat % 512 ≠ 0 := by
  intro haligned
  have hidx : (s.tL.toNat : Int) ≤ s.wordIdx + 1 := le_idx_succ_of_wordClass hc
  obtain ⟨hpos, -, -, hsect, -, hoff, -, hend⟩ := ht
  rw [hend] at haligned
  have hfill := requiredSectors_of_aligned_end hpos haligned
  rw [← hsect] at hfill
  unfold State.wordIdx wordIndex at hidx
  omega

/-- From a legal state the merge of WRITE's data word never reads an unwritten snapshot element (R167, R262). -/
theorem mergeWord_ne_unwritten_of_inv (h : s.Inv) (hs : s.seq = .run (.leg .write .xfer)) :
    mergeWord s ≠ .error .unwrittenSnapshot := by
  obtain ⟨-, ht, ⟨hw, hsec⟩, hstart, hend⟩ := (running_facts h hs).2.2.2.1
  refine mergeWord_ne_unwritten (fun hc => ?_) (fun hc => ?_)
  · have hoff : s.tOff.toNat ≠ 0 := off_ne_zero_of_wordIndex_neg (idx_neg_of_wordClass hc)
    have hhave : s.haveStart = true := by rw [hstart, decide_eq_true hoff]
    exact startWord_of_full hhave (h.startFull hhave) hw
  · have hlast := tEnd_unaligned_of_wordClass ht hw hsec hc
    have hhave : s.haveEnd = true := by rw [hend, decide_eq_true hlast]
    exact endWord_of_full hhave (h.endFull hhave) hw

/-! ### The steps of a leg -/

/-- A leg programs at least one sector (R182, R204, R90). -/
theorem State.TransferOk.legCount_pos (ht : s.TransferOk) (l : Leg) : 0 < (s.legCount l).toNat := by
  have hsect : 0 < s.tSect.toNat := ht.sectors ▸ requiredSectors_pos _ ht.nonempty
  cases l with
  | read => exact hsect
  | snapStart => exact Nat.one_pos
  | snapEnd => exact Nat.one_pos
  | write => exact hsect

/-- A transfer command goes out only where its leg has it due (R188). -/
theorem issueTransfer_next {c : Instr} (h : issueTransfer c s = .next t) :
    ∃ l, s.seq = .run (.leg l .cmd) ∧ t = goPoint (.leg l .wrBsy) (zeroLoops (issue c s)) := by
  unfold issueTransfer at h
  split at h
  next l hl =>
    split at h
    · cases h
      unfold commandLeg at hl
      split at hl
      · cases hl
        exact ⟨l, ‹_›, rfl⟩
      · cases hl
    · cases h
  · cases h

/-- The closing flush goes out only where it is due (R185). -/
theorem execCacheFlush_next (h : execCacheFlush s = .next t) :
    s.seq = .run .flCmd ∧ t = finishTransfer s.tEnd (issue .cacheFlush s) := by
  unfold execCacheFlush at h
  split at h
  · cases h
    exact ⟨‹_›, rfl⟩
  · cases h

/-- Outside its data phase a leg has read no word (R204). -/
theorem wordsRead_of_not_xfer {p : Stage} (hp : p ≠ .xfer) : wordsRead p s = 0 := by
  cases p with
  | xfer => exact absurd rfl hp
  | _ => rfl

/-- The snapshots at a point of a leg outside its data phase are those at any other (R33). -/
theorem snapsOk_of_not_xfer {l : Leg} {p q : Stage} (hp : p ≠ .xfer) (hq : q ≠ .xfer) (h : snapsOk l p s) :
    snapsOk l q s := by
  cases l with
  | read => trivial
  | snapStart => rw [snapsOk, wordsRead_of_not_xfer hq]; rwa [snapsOk, wordsRead_of_not_xfer hp] at h
  | snapEnd => rw [snapsOk, wordsRead_of_not_xfer hq]; rwa [snapsOk, wordsRead_of_not_xfer hp] at h
  | write => exact h

/-- A transfer command starts the wait for the first of the leg's sectors (R184; log entry 6). -/
theorem inv_issueTransfer {c : Instr} (h : s.Inv) (ht : issueTransfer c s = .next t) : t.Inv := by
  obtain ⟨l, hs, rfl⟩ := issueTransfer_next ht
  obtain ⟨-, -, hinit, ⟨hop, hok, -, hsnaps⟩, -⟩ := running_facts h hs
  have hcount := hok.legCount_pos l
  have hout : (issue c s).Inv := inv_portOut8 h _ _
  have hzero : (zeroLoops (issue c s)).Inv := inv_setLoops hout hs 0#16 0#9 trivial
    (by cases l <;> exact hsnaps)
  refine inv_go hzero hs hinit ⟨hop, hok.congr rfl rfl rfl rfl rfl rfl rfl, ⟨rfl, ?_⟩, ?_⟩
  · cases l <;> exact hcount
  · exact snapsOk_of_not_xfer (p := .cmd) nofun nofun (by cases l <;> exact hsnaps)

/-- The closing flush completes WRITE (R220, R226). -/
theorem inv_execCacheFlush (h : s.Inv) (ht : execCacheFlush s = .next t) : t.Inv := by
  obtain ⟨hs, rfl⟩ := execCacheFlush_next ht
  have hinit : s.inited = true := (running_facts h hs).2.2.1
  exact inv_finish (inv_portOut8 h _ _) hs hinit _

/-- The next word of a sector is a legal place when the snapshots hold the words before it (R31, R204). -/
theorem inv_bumpWord {l : Leg} (h : s.Inv) (hs : s.seq = .run (.leg l .xfer)) (hlast : s.loopW.toNat < 255)
    (hsnaps : snapsOk l .xfer (bumpWord s)) : (bumpWord s).Inv := by
  obtain ⟨-, -, -, ⟨-, -, ⟨hw, hsec⟩, -⟩, -⟩ := running_facts h hs
  refine inv_setLoops h hs s.loopS (s.loopW + 1#9) ⟨?_, ?_⟩ hsnaps
  · show (s.loopW + 1#9).toNat < 256
    rw [toNat_add9 hw]; omega
  · cases l <;> exact hsec

/-- What a data word of READ or WRITE leaves to come is legal when the end of the data phase is (R201, R224). -/
theorem inv_nextWord {l : Leg} {done : State → State} (hl : l = .read ∨ l = .write) (h : s.Inv)
    (hs : s.seq = .run (.leg l .xfer)) (hdone : (done s).Inv) : (nextWord l done s).Inv := by
  obtain ⟨-, -, hinit, ⟨hop, hok, ⟨hw, hsec⟩, hsnaps⟩, -⟩ := running_facts h hs
  have hcount : s.legCount l = s.tSect := by rcases hl with rfl | rfl <;> rfl
  have hloops : ∀ (a : Word16) (b : BitVec 9) (p : Stage), snapsOk l p { s with loopS := a, loopW := b } := by
    rcases hl with rfl | rfl
    · exact fun _ _ _ => trivial
    · exact fun _ _ _ => hsnaps
  unfold nextWord
  split
  next hlast => exact inv_bumpWord h hs hlast (hloops _ _ _)
  next =>
    split
    next hmore =>
      have hbound : (s.loopS + 1#16).toNat < s.tSect.toNat := by
        have := hok.sectorsMax
        rw [toNat_add16 (by omega)]; exact hmore
      have hnext : (bumpSector s).loopS.toNat < ((bumpSector s).legCount l).toNat := by
        rcases hl with rfl | rfl <;> exact hbound
      have hbump : (bumpSector s).Inv :=
        inv_setLoops h hs (s.loopS + 1#16) 0#9 ⟨by show (0#9).toNat < 256; decide, hnext⟩ (hloops _ _ _)
      exact inv_go hbump hs hinit ⟨hop, hok.congr rfl rfl rfl rfl rfl rfl rfl, ⟨rfl, hnext⟩, hloops _ _ _⟩
    next => exact hdone

/-- What READ's data word can do (R201, R202, R51). -/
theorem readWordStep_next (ht : readWordStep s = .next t) :
    ∃ m, scatter s.tBuf.toNat s.wordIdx s.tL.toNat (portIn16 s).1 s.mem = some m ∧
      t = nextWord .read endOfRead (setMem m (portIn16 s).2) := by
  unfold readWordStep at ht
  split at ht
  · cases ht; exact ⟨_, ‹_›, rfl⟩
  · cases ht

/-- The step of READ's data word (R201, R202). -/
theorem inv_readWordStep (h : s.Inv) (hs : s.seq = .run (.leg .read .xfer)) (ht : readWordStep s = .next t) :
    t.Inv := by
  obtain ⟨m, hm, rfl⟩ := readWordStep_next ht
  have hmem : (setMem m (portIn16 s).2).Inv :=
    inv_setMem (inv_portIn16 h) m (scatter_wf hm h.memWf) (scatter_below hm h.memBelow)
  have hinit : s.inited = true := inited_leg h hs
  exact inv_nextWord (.inl rfl) hmem hs (inv_finish hmem hs hinit _)

/-- The step of WRITE's data word (R224): no unwritten element is read, so it pushes a word. -/
theorem inv_writeWordStep (h : s.Inv) (hs : s.seq = .run (.leg .write .xfer)) (ht : writeWordStep s = .next t) :
    t.Inv := by
  rcases writeWordStep_cases s with ⟨v, -, e⟩ | ⟨hm, -⟩ | ⟨-, e⟩
  · rw [e] at ht
    cases ht
    obtain ⟨-, -, hinit, ⟨hop, hok, -, hsnaps⟩, -⟩ := running_facts h hs
    have hout := inv_portOut16 h v
    exact inv_nextWord (.inr rfl) hout hs
      (inv_go hout hs hinit ⟨hop, hok.congr rfl rfl rfl rfl rfl rfl rfl, hsnaps⟩)
  · exact absurd hm (mergeWord_ne_unwritten_of_inv h hs)
  · rw [e] at ht; cases ht

/-- A snapshot with one more word kept holds what it held (R204). -/
theorem filledTo_of_set {a : Snapshot} {n : Nat} (hn : n < 256) (v : Word16) (h : a.filledTo n) :
    Snapshot.filledTo (a.setIfInBounds n (some v)) n :=
  fun k hk => filledTo_set hn v h k (Nat.lt_succ_of_lt hk)

/-- A word of the start snapshot is kept (R204, R221). -/
theorem inv_keepStart (h : s.Inv) (hs : s.seq = .run (.leg .snapStart .xfer)) (v : Word16) :
    (keepStart v s).Inv := by
  obtain ⟨-, -, -, ⟨hop, hok, hloops, hoff, hhs, hhe, hfill⟩, -⟩ := running_facts h hs
  obtain ⟨hres, hbusy, hfault, hinit, herr⟩ := h.status
  refine ⟨h.memWf, h.memBelow, h.device, h.base, ⟨hres, hbusy, hfault, hinit, herr⟩, ?_, h.endFull, ?_,
    h.snapshotFault⟩
  · exact fun hflag => nomatch hhs.symm.trans hflag
  · show pointOk s.seq (keepStart v s)
    rw [hs]
    exact ⟨hop, hok.congr rfl rfl rfl rfl rfl rfl rfl, hloops, hoff, hhs, hhe, filledTo_of_set hloops.1 v hfill⟩

/-- A word of the end snapshot is kept (R204, R222). -/
theorem inv_keepEnd (h : s.Inv) (hs : s.seq = .run (.leg .snapEnd .xfer)) (v : Word16) : (keepEnd v s).Inv := by
  obtain ⟨-, -, -, ⟨hop, hok, hloops, hend, hhs, hhe, hfill⟩, -⟩ := running_facts h hs
  obtain ⟨hres, hbusy, hfault, hinit, herr⟩ := h.status
  refine ⟨h.memWf, h.memBelow, h.device, h.base, ⟨hres, hbusy, hfault, hinit, herr⟩, h.startFull, ?_, ?_,
    h.snapshotFault⟩
  · exact fun hflag => nomatch hhe.symm.trans hflag
  · show pointOk s.seq (keepEnd v s)
    rw [hs]
    exact ⟨hop, hok.congr rfl rfl rfl rfl rfl rfl rfl, hloops, hend, hhs, hhe, filledTo_of_set hloops.1 v hfill⟩

/-- The start snapshot is complete: its flag is set, and WRITE goes on (R221). -/
theorem inv_endOfStartSnap (h : s.Inv) (hs : s.seq = .run (.leg .snapStart .xfer))
    (hfull : s.startSnap.filledTo 256) : (endOfStartSnap s).Inv := by
  obtain ⟨hbusy, hflag, hinit, ⟨hop, hok, -, hoff, -, hhe, -⟩, herr⟩ := running_facts h hs
  have hbody : (markStart s).BodyInv :=
    ⟨h.memWf, h.memBelow, h.device, h.base, fun _ => hfull, h.endFull, h.snapshotFault⟩
  have hhandle : s.inited = true := hinit
  exact inv_goPoint hbody h.status.reserved hbusy hflag herr _ (hhandle.symm ▸ initFlagOk_afterStartSnap s)
    (pointOk_afterStartSnap (s := markStart s) hop (hok.congr rfl rfl rfl rfl rfl rfl rfl)
      (decide_eq_true hoff).symm hhe)

/-- The end snapshot is complete: its flag is set, and WRITE's own command follows (R222). -/
theorem inv_endOfEndSnap (h : s.Inv) (hs : s.seq = .run (.leg .snapEnd .xfer)) (hfull : s.endSnap.filledTo 256) :
    (endOfEndSnap s).Inv := by
  obtain ⟨hbusy, hflag, hinit, ⟨hop, hok, -, hend, hhs, -, -⟩, herr⟩ := running_facts h hs
  have hbody : (markEnd s).BodyInv :=
    ⟨h.memWf, h.memBelow, h.device, h.base, h.startFull, fun _ => hfull, h.snapshotFault⟩
  exact inv_goPoint hbody h.status.reserved hbusy hflag herr _ hinit
    ⟨hop, hok.congr rfl rfl rfl rfl rfl rfl rfl, trivial, hhs, (decide_eq_true hend).symm⟩

/-- The words a snapshot's data phase has read count up (R204). -/
theorem wordsRead_bumpWord (hw : s.loopW.toNat < 256) : wordsRead .xfer (bumpWord s) = s.loopW.toNat + 1 :=
  toNat_add9 hw

/-- What a data word of a snapshot leaves to come is legal when the end of the snapshot is (R204). -/
theorem inv_nextSnapWord {l : Leg} {done : State → State} (h : s.Inv) (hs : s.seq = .run (.leg l .xfer))
    (hsnaps : snapsOk l .xfer (bumpWord s)) (hdone : s.loopW.toNat + 1 = 256 → (done s).Inv) :
    (nextSnapWord done s).Inv := by
  obtain ⟨-, -, -, ⟨-, -, ⟨hw, -⟩, -⟩, -⟩ := running_facts h hs
  unfold nextSnapWord
  split
  next hlast => exact inv_bumpWord h hs hlast hsnaps
  next hlast => exact hdone (by omega)

/-- The step of a data word of the start snapshot (R204, R221). -/
theorem inv_snapStartStep (h : s.Inv) (hs : s.seq = .run (.leg .snapStart .xfer)) : (snapStartStep s).Inv := by
  obtain ⟨-, -, -, ⟨-, -, ⟨hw, -⟩, hoff, hhs, hhe, hfill⟩, -⟩ := running_facts h hs
  have hkeep := inv_keepStart (inv_portIn16 h) hs (portIn16 s).1
  have hmore := filledTo_set hw (portIn16 s).1 hfill
  refine inv_nextSnapWord hkeep hs ⟨hoff, hhs, hhe, ?_⟩ fun hlast => inv_endOfStartSnap hkeep hs (hlast ▸ hmore)
  rw [wordsRead_bumpWord]
  exacts [hmore, hw]

/-- The step of a data word of the end snapshot (R204, R222). -/
theorem inv_snapEndStep (h : s.Inv) (hs : s.seq = .run (.leg .snapEnd .xfer)) : (snapEndStep s).Inv := by
  obtain ⟨-, -, -, ⟨-, -, ⟨hw, -⟩, hend, hhs, hhe, hfill⟩, -⟩ := running_facts h hs
  have hkeep := inv_keepEnd (inv_portIn16 h) hs (portIn16 s).1
  have hmore := filledTo_set hw (portIn16 s).1 hfill
  refine inv_nextSnapWord hkeep hs ⟨hend, hhs, hhe, ?_⟩ fun hlast => inv_endOfEndSnap hkeep hs (hlast ▸ hmore)
  rw [wordsRead_bumpWord]
  exacts [hmore, hw]

/-- The step of a data word, by its leg. -/
theorem inv_xferStep {l : Leg} (h : s.Inv) (hs : s.seq = .run (.leg l .xfer)) (ht : xferStep l s = .next t) :
    t.Inv := by
  cases l with
  | read => exact inv_readWordStep h hs ht
  | snapStart => cases ht; exact inv_snapStartStep h hs
  | snapEnd => cases ht; exact inv_snapEndStep h hs
  | write => exact inv_writeWordStep h hs ht

/-! ### Every step -/

/-- Every instruction keeps the legal states. -/
theorem inv_exec {i : Instr} (h : s.Inv) (ht : exec i s = .next t) : t.Inv := by
  cases i with
  | init => cases ht; exact inv_execInit h
  | seekAbs =>
    cases ht
    exact inv_request_completes .seekAbs _ h handleFault_none fun u hb hi hf => inv_moveCursor hb hi hf u.arg0
  | seekRel =>
    cases ht
    exact inv_request_completes .seekRel _ h (fun ha => (seekFault_none ha).1) fun _ => inv_seekRelBody
  | seekEnd =>
    cases ht
    exact inv_request_completes .seekEnd _ h handleFault_none fun _ hb hi hf => inv_completeErr hb hi hf _
  | read => cases ht; exact inv_execRead h
  | write => cases ht; exact inv_execWrite h
  | flush =>
    cases ht
    exact inv_request_completes .flush _ h handleFault_none fun _ hb hi hf => inv_completeOk hb hi hf _
  | rsc =>
    cases ht
    exact inv_request_completes .rsc _ h handleFault_none fun _ hb hi hf => inv_completeOk hb hi hf _
  | readSectors => exact inv_issueTransfer h ht
  | writeSectors => exact inv_issueTransfer h ht
  | cacheFlush => exact inv_execCacheFlush h ht

/-- The step of a point of a command sequence (R180 to R184). -/
theorem inv_legStep {l : Leg} {p : Stage} (h : s.Inv) (hs : s.seq = .run (.leg l p)) (ht : legStep l p s = .next t) :
    t.Inv := by
  have hprogram : ∀ {q : Stage} (port : PortName) (v : Byte), p ≠ .xfer → q ≠ .xfer → loopsOk l q s →
      (programStep port v (.leg l q) s).Inv := fun port v hp hq hloops =>
    inv_program port v h hs fun ⟨hop, hok, _, hsnaps⟩ => ⟨hop, hok, hloops, snapsOk_of_not_xfer hp hq hsnaps⟩
  cases p with
  | bw =>
    cases ht
    exact inv_poll _ h hs id fun ⟨hop, hok, _, hsnaps⟩ =>
      ⟨hop, hok, trivial, snapsOk_of_not_xfer (p := .bw) nofun nofun hsnaps⟩
  | sel => cases ht; exact hprogram _ _ nofun nofun trivial
  | cnt => cases ht; exact hprogram _ _ nofun nofun trivial
  | l0 => cases ht; exact hprogram _ _ nofun nofun trivial
  | l1 => cases ht; exact hprogram _ _ nofun nofun trivial
  | l2 => cases ht; exact hprogram _ _ nofun nofun trivial
  | cmd => exact inv_exec (i := l.command) h ht
  | wrBsy =>
    cases ht
    exact inv_poll _ h hs id fun ⟨hop, hok, hloops, hsnaps⟩ =>
      ⟨hop, hok, hloops, snapsOk_of_not_xfer (p := .wrBsy) nofun nofun hsnaps⟩
  | wrDrq =>
    cases ht
    refine inv_poll _ h hs id fun ⟨hop, hok, hloops, hsnaps⟩ => ⟨hop, hok, ⟨?_, hloops.2⟩, ?_⟩
    · exact Nat.lt_of_le_of_lt hloops.1.le (by decide)
    · have hread : wordsRead .xfer s = wordsRead .wrDrq s := hloops.1
      cases l with
      | read => trivial
      | snapStart => rw [snapsOk, hread]; exact hsnaps
      | snapEnd => rw [snapsOk, hread]; exact hsnaps
      | write => exact hsnaps
  | xfer => exact inv_xferStep h hs ht

/-- The step of a point keeps the legal states (R37). -/
theorem inv_pointStep {pt : Point} (h : s.Inv) (hs : s.seq = .run pt) (ht : pointStep pt s = .next t) : t.Inv := by
  cases pt with
  | initStatus => cases ht; exact inv_initStatusStep h hs
  | initControl => cases ht; exact inv_initControlStep h hs
  | leg l p => exact inv_legStep h hs ht
  | flBsy => cases ht; exact inv_poll _ h hs id id
  | flCmd => exact inv_execCacheFlush h ht

/-- The unit's own step is that of the running request's point; without one nothing happens (R281). -/
theorem unitStep_next (ht : unitStep s = .next t) : (∃ pt, s.seq = .run pt ∧ pointStep pt s = .next t) ∨ t = s := by
  unfold unitStep at ht
  split at ht
  next pt hs => exact .inl ⟨pt, hs, ht⟩
  all_goals cases ht; exact .inr rfl

/-- The unit's own step keeps the legal states (R40). -/
theorem inv_unitStep (h : s.Inv) (ht : unitStep s = .next t) : t.Inv := by
  rcases unitStep_next ht with ⟨pt, hs, hp⟩ | rfl
  · exact inv_pointStep h hs hp
  · exact h

/-- A written word runs its request or is illegal (R39, R83). -/
theorem writeReq_next {q : Byte} (ht : writeReq q s = .next t) :
    (∃ i, decodeRequest q = .ok i ∧ exec i s = .next t) ∨ t = illegalWord s := by
  unfold writeReq at ht
  split at ht
  · exact .inl ⟨_, ‹_›, ht⟩
  · cases ht; exact .inr rfl

/-- An illegal word is ignored or raises a fault (R83, R256, R259). -/
theorem illegalWord_cases (s : State) : illegalWord s = s ∨ ∃ c, illegalWord s = raiseFault c s := by
  unfold illegalWord gated
  split
  · exact .inl rfl
  · split <;> exact .inr ⟨_, rfl⟩

/-- A written request word keeps the legal states, an illegal one too (R39, R83). -/
theorem inv_writeReq {q : Byte} (h : s.Inv) (ht : writeReq q s = .next t) : t.Inv := by
  rcases writeReq_next ht with ⟨i, -, he⟩ | rfl
  · exact inv_exec h he
  · rcases illegalWord_cases s with e | ⟨c, e⟩ <;> rw [e]
    · exact h
    · exact inv_raiseFault h.body c

/-- USTAT after reset (R42): no flag, ERR OK. -/
theorem hardReset_ustat_fields (s : State) :
    (hardReset s).ustat = ustatOf false false false ResultCode.ok.code :=
  (hardReset_ustat s).trans (by decide)

theorem hardReset_status (s : State) : (hardReset s).StatusOk := by
  have hu := hardReset_ustat_fields s
  have hseq : (hardReset s).seq = .uninit := rfl
  constructor
  case reserved => rw [hu, ustatReserved_ustatOf]
  case busy => rw [State.busy, hu, ustatBusy_ustatOf, hseq]; rfl
  case fault => rw [State.faultFlag, hu, ustatFault_ustatOf, hseq]; rfl
  case init => rw [State.inited, hu, ustatInit_ustatOf, hseq]; rfl
  case err =>
    rw [State.faultFlag, State.err, hu, ustatFault_ustatOf, ustatErr_ustatOf]
    exact ⟨.ok, rfl⟩

/-- A hardware reset reaches a legal state from every state whose memory and device are legal (R280). -/
theorem inv_hardReset (hwf : s.mem.wf = true) (hbelow : s.mem.below Config.memBytes = true) (hd : deviceOk s.device) :
    (hardReset s).Inv where
  memWf := hwf
  memBelow := hbelow
  device := hd
  base := Nat.zero_le _
  status := hardReset_status s
  startFull := nofun
  endFull := nofun
  point := trivial
  snapshotFault := rfl

/-- The caller's queue, operands and last read are no part of the legal states. -/
theorem inv_of_callerSide (h : s.Inv) (hunit : s.sameUnit t) (hmem : t.mem = s.mem) (hdev : t.device = s.device) :
    t.Inv :=
  inv_of_sameUnit h hunit (hmem ▸ h.memWf) (hmem ▸ h.memBelow) (hdev ▸ h.device)

theorem inv_setQueue (h : s.Inv) (q : List CallerMove) : (setQueue q s).Inv :=
  inv_of_callerSide h (by simp [State.sameUnit]) rfl rfl

/-- Settles O55: a step is the unit's own or one move of the caller; requests and points keep the invariant by their own
lemmas, and the caller's other moves leave the unit's registers. -/
theorem stepKeepsLegalStates : Obligations.StepKeepsLegalStates := by
  intro s t h ht
  have hq := fun rest => inv_setQueue h rest
  rcases step_cases ht with ⟨-, hu⟩ | ⟨rest, -, hu⟩ | ⟨-, -, -, hu⟩ | ⟨rest, -, -, rfl⟩ | ⟨q, rest, -, hu⟩ |
    ⟨v, rest, -, rfl⟩ | ⟨v, rest, -, rfl⟩ | ⟨r, rest, -, rfl⟩ | ⟨a, v, rest, -, -, rfl⟩ | ⟨a, rest, -, -, rfl⟩ |
    ⟨rest, -, rfl⟩
  · exact inv_unitStep h hu
  · exact inv_unitStep (hq rest) hu
  · exact inv_unitStep h hu
  · exact hq rest
  · exact inv_writeReq (hq rest) hu
  · exact inv_of_callerSide h (by simp [State.sameUnit]) rfl rfl
  · exact inv_of_callerSide h (by simp [State.sameUnit]) rfl rfl
  · exact inv_of_callerSide h (by simp [State.sameUnit]) rfl rfl
  · exact inv_setMem (hq rest) _ (Memory.wf_set _ h.memWf _ _) (Memory.below_set _ h.memBelow _ _ a.isLt)
  · exact inv_of_callerSide h (by simp [State.sameUnit]) rfl rfl
  · exact inv_hardReset h.memWf h.memBelow h.device

end Sys2Proof.Machine
end

section
/-! PROOFS. The transitions of SEQ (R36) and who writes the bases (R21, R22): each operation's effect on SEQ, CMD_BASE and
CTL_BASE, and the two rules about a whole step. -/

namespace Sys2Proof.Machine

variable {s t : State}

/-! ### Decoding a written word -/

/-- The OP field is the word's low half, as numbers (R80). -/
theorem reqOp_toNat (q : Byte) : (reqOp q).toNat = q.toNat % 16 := by
  simp [reqOp]

/-- A word without reserved bits is its OP field (R80, R83). -/
theorem toNat_lt_of_reqRsv {q : Byte} (h : reqRsv q = 0#4) : q.toNat < 16 := by
  have hr : (reqRsv q).toNat = 0 := by rw [h]; rfl
  have hq := q.isLt
  simp only [reqRsv, BitVec.extractLsb'_toNat, Nat.shiftRight_eq_div_pow] at hr
  omega

/-- A word that decodes to a request is that request's byte, on the request surface (R82). -/
theorem encode_of_decodeRequest {q : Byte} {i : Instr} (h : decodeRequest q = .ok i) :
    encode i = q ∧ i.format = .req8 := by
  unfold decodeRequest at h
  split at h
  next hrsv =>
    have hop : (reqOp q).toNat = q.toNat := by
      rw [reqOp_toNat, Nat.mod_eq_of_lt (toNat_lt_of_reqRsv hrsv)]
    unfold decodeOp at h
    rw [hop] at h
    split at h
    all_goals cases h
    all_goals exact ⟨BitVec.eq_of_toNat_eq (Eq.symm ‹_›), rfl⟩
  next => cases h

/-! ### SEQ after a step of a running request -/

/-- SEQ at a point of the request `i`, or past it: IDLE or FAULTED (R36). -/
def Seq.withinRequest (i : Instr) (q : Seq) : Prop :=
  (∃ p, q = .run p ∧ p.request = i) ∨ q = .idle ∨ q = .faulted

theorem Seq.withinRequest_run (p : Point) : Seq.withinRequest p.request (.run p) := .inl ⟨p, rfl, rfl⟩

theorem Seq.withinRequest_idle (i : Instr) : Seq.withinRequest i .idle := .inr (.inl rfl)

theorem Seq.withinRequest_faulted (i : Instr) : Seq.withinRequest i .faulted := .inr (.inr rfl)

/-- Every stage of a leg belongs to the leg's request (R35). -/
theorem Seq.withinRequest_leg (l : Leg) (p q : Stage) :
    Seq.withinRequest (Point.leg l p).request (.run (.leg l q)) :=
  .inl ⟨_, rfl, by cases l <;> rfl⟩

/-- WRITE's points between its legs are WRITE's (R221, R222). -/
theorem afterStartSnap_request (s : State) : (afterStartSnap s).request = .write := by
  unfold afterStartSnap; split <;> rfl

/-- A poll stays at its point or goes on (R180, R181). -/
theorem poll_seq (done : Byte → Bool) (pt : Point) (s : State) :
    (poll done pt s).seq = s.seq ∨ (poll done pt s).seq = .run pt := by
  unfold poll
  split
  · exact .inr rfl
  · exact .inl rfl

theorem poll_seq_within {done : Byte → Bool} {i : Instr} {pt : Point} (hs : s.seq.withinRequest i)
    (hpt : Seq.withinRequest i (.run pt)) : (poll done pt s).seq.withinRequest i := by
  rcases poll_seq done pt s with e | e <;> rw [e] <;> assumption

/-- After a data word of READ or WRITE: the same point, the next sector's wait, or the end of the phase. -/
theorem nextWord_seq_within {l : Leg} {done : State → State} {i : Instr} (hs : s.seq.withinRequest i)
    (hl : Seq.withinRequest i (.run (.leg l .wrBsy))) (hdone : (done s).seq.withinRequest i) :
    (nextWord l done s).seq.withinRequest i := by
  rcases nextWord_cases l done s with e | e | e <;> rw [e] <;> assumption

/-- After a data word of a snapshot: the next word, or the end of the snapshot (R204). -/
theorem nextSnapWord_cases (done : State → State) (s : State) :
    nextSnapWord done s = bumpWord s ∨ nextSnapWord done s = done s := by
  unfold nextSnapWord
  split
  · exact .inl rfl
  · exact .inr rfl

theorem nextSnapWord_seq_within {done : State → State} {i : Instr} (hs : s.seq.withinRequest i)
    (hdone : (done s).seq.withinRequest i) : (nextSnapWord done s).seq.withinRequest i := by
  rcases nextSnapWord_cases done s with e | e <;> rw [e] <;> assumption

/-- What WRITE's data word can do (R224, R262, R51). -/
theorem writeWordStep_next (ht : writeWordStep s = .next t) :
    (∃ v, t = nextWord .write (goPoint .flBsy) (portOut16 v s)) ∨ t = raiseUnwrittenSnapshot s := by
  rcases writeWordStep_cases s with ⟨v, -, e⟩ | ⟨-, e⟩ | ⟨-, e⟩ <;> rw [e] at ht <;> cases ht
  · exact .inl ⟨v, rfl⟩
  · exact .inr rfl

theorem xferStep_seq_within {l : Leg} (hs : s.seq = .run (.leg l .xfer)) (ht : xferStep l s = .next t) :
    t.seq.withinRequest (Point.leg l .xfer).request := by
  have hstay : s.seq.withinRequest (Point.leg l .xfer).request := hs ▸ Seq.withinRequest_leg l .xfer .xfer
  cases l with
  | read =>
    obtain ⟨m, -, rfl⟩ := readWordStep_next ht
    exact nextWord_seq_within hstay (Seq.withinRequest_run (.leg .read .wrBsy)) (Seq.withinRequest_idle _)
  | snapStart =>
    cases ht
    exact nextSnapWord_seq_within hstay (.inl ⟨_, rfl, afterStartSnap_request _⟩)
  | snapEnd =>
    cases ht
    exact nextSnapWord_seq_within hstay (Seq.withinRequest_run (.leg .write .bw))
  | write =>
    rcases writeWordStep_next ht with ⟨v, rfl⟩ | rfl
    · exact nextWord_seq_within hstay (Seq.withinRequest_run (.leg .write .wrBsy)) (Seq.withinRequest_run .flBsy)
    · exact Seq.withinRequest_faulted _

/-- The leg's command step is the issue of its transfer command (R184). -/
theorem exec_legCommand (l : Leg) (s : State) : exec l.command s = issueTransfer l.command s := by
  cases l <;> rfl

theorem legStep_seq_within {l : Leg} {p : Stage} (hs : s.seq = .run (.leg l p)) (ht : legStep l p s = .next t) :
    t.seq.withinRequest (Point.leg l p).request := by
  have hstay : s.seq.withinRequest (Point.leg l p).request := hs ▸ Seq.withinRequest_leg l p p
  have hnext : ∀ q, Seq.withinRequest (Point.leg l p).request (.run (.leg l q)) := Seq.withinRequest_leg l p
  cases p with
  | bw => cases ht; exact poll_seq_within hstay (hnext _)
  | sel => cases ht; exact hnext _
  | cnt => cases ht; exact hnext _
  | l0 => cases ht; exact hnext _
  | l1 => cases ht; exact hnext _
  | l2 => cases ht; exact hnext _
  | cmd =>
    obtain ⟨l', hs', rfl⟩ := issueTransfer_next ((exec_legCommand l s).symm.trans ht)
    rw [hs] at hs'
    cases hs'
    exact hnext _
  | wrBsy => cases ht; exact poll_seq_within hstay (hnext _)
  | wrDrq => cases ht; exact poll_seq_within hstay (hnext _)
  | xfer => exact xferStep_seq_within hs ht

/-- INIT's status read ends in FAULTED or at the control write (R130). -/
theorem initStatusStep_seq (s : State) :
    (initStatusStep s).seq = .faulted ∨ (initStatusStep s).seq = .run .initControl := by
  unfold initStatusStep
  split
  · exact .inl rfl
  · exact .inr rfl

/-- A running request stays itself until it ends (R36). -/
theorem pointStep_seq_within {pt : Point} (hs : s.seq = .run pt) (ht : pointStep pt s = .next t) :
    t.seq.withinRequest pt.request := by
  have hstay : s.seq.withinRequest pt.request := hs ▸ Seq.withinRequest_run pt
  cases pt with
  | initStatus =>
    cases ht
    rcases initStatusStep_seq s with e | e <;> rw [e]
    · exact Seq.withinRequest_faulted _
    · exact Seq.withinRequest_run .initControl
  | initControl => cases ht; exact Seq.withinRequest_idle _
  | leg l p => exact legStep_seq_within hs ht
  | flBsy => cases ht; exact poll_seq_within hstay (Seq.withinRequest_run .flCmd)
  | flCmd =>
    obtain ⟨-, rfl⟩ := execCacheFlush_next ht
    exact Seq.withinRequest_idle _

/-! ### SEQ after a written word -/

/-- What a request does past its checks (R39); a device command is no request. -/
def Instr.requestBody : Instr → State → State
  | .init => beginInit
  | .seekAbs => seekAbsBody
  | .seekRel => seekRelBody
  | .seekEnd => seekEndBody
  | .read => readBody
  | .write => writeBody
  | .flush => flushBody
  | .rsc => rscBody
  | .readSectors => id
  | .writeSectors => id
  | .cacheFlush => id

/-- `exec` of a request is its acceptance with its body (R39, R256). -/
theorem exec_request {i : Instr} (hi : i.format = .req8) (s : State) :
    exec i s = .next (request i (Instr.requestBody i) s) := by
  cases i with
  | readSectors => cases hi
  | writeSectors => cases hi
  | cacheFlush => cases hi
  | _ => rfl

/-- A request passes checks 4 and 5 of R256 just when INIT finds no handle and any other request one. -/
theorem inited_of_acceptFault_none {i : Instr} (hi : i.format = .req8) (h : acceptFault i s = none) :
    s.inited = decide (i ≠ .init) := by
  cases i with
  | init => exact (initFault_none h).1
  | seekAbs => exact handleFault_none h
  | seekRel => exact (seekFault_none h).1
  | seekEnd => exact handleFault_none h
  | read => exact (transferFault_none h).1
  | write => exact (transferFault_none h).1
  | flush => exact handleFault_none h
  | rsc => exact handleFault_none h
  | readSectors => cases hi
  | writeSectors => cases hi
  | cacheFlush => cases hi

/-- A unit that is neither faulted nor busy is UNINIT or IDLE, as its handle says (R35). -/
theorem seq_of_not_busy (h : s.Inv) (hf : s.seq ≠ .faulted) (hb : s.busy = false) :
    s.seq = if s.inited then .idle else .uninit := by
  have hrun := h.status.busy
  have hinit := h.status.init
  cases hs : s.seq with
  | uninit => rw [hs] at hinit; rw [show s.inited = false from hinit]; rfl
  | idle => rw [hs] at hinit; rw [show s.inited = true from hinit]; rfl
  | run pt => rw [hs, hb] at hrun; cases hrun
  | faulted => exact absurd hs hf

/-- WRITE begins at the busy-wait of one of its legs (R220). -/
theorem firstWritePoint_bw (s : State) : ∃ l, firstWritePoint s = .leg l .bw := by
  unfold firstWritePoint afterStartSnap
  split_ifs <;> exact ⟨_, rfl⟩

/-- A request other than INIT completes in its acceptance step or goes to a busy-wait of READ or WRITE (R40). -/
theorem requestBody_seq {i : Instr} (hi : i.format = .req8) (hne : i ≠ .init) (s : State) :
    (Instr.requestBody i s).seq = .idle ∨ ∃ l, (Instr.requestBody i s).seq = .run (.leg l .bw) := by
  cases i with
  | init => exact absurd rfl hne
  | seekAbs => exact .inl rfl
  | seekRel =>
    show (seekRelBody s).seq = .idle ∨ _
    unfold seekRelBody
    split <;> exact .inl rfl
  | seekEnd => exact .inl rfl
  | read =>
    show (readBody s).seq = .idle ∨ ∃ l, (readBody s).seq = .run (.leg l .bw)
    unfold readBody
    split
    · exact .inl rfl
    · exact .inr ⟨_, rfl⟩
  | write =>
    show (writeBody s).seq = .idle ∨ ∃ l, (writeBody s).seq = .run (.leg l .bw)
    unfold writeBody
    split
    · exact .inl rfl
    · obtain ⟨l, hl⟩ := firstWritePoint_bw (latchWrite s)
      exact .inr ⟨l, by rw [hl]; rfl⟩
  | flush => exact .inl rfl
  | rsc => exact .inl rfl
  | readSectors => cases hi
  | writeSectors => cases hi
  | cacheFlush => cases hi

/-- A change of SEQ that R36 allows. -/
def Seq.transition (p q : Seq) : Prop :=
  (p = .uninit ∧ (q = .run .initStatus ∨ q = .faulted)) ∨
    (p = .idle ∧ ((∃ l, q = .run (.leg l .bw)) ∨ q = .faulted)) ∨
    ∃ pt, p = .run pt ∧ ((∃ pt', q = .run pt' ∧ pt'.request = pt.request) ∨ q = .idle ∨ q = .faulted)

/-- FAULTED is reached from everywhere else (R36, R255). -/
theorem Seq.transition_faulted {p : Seq} (hp : p ≠ .faulted) : Seq.transition p .faulted := by
  cases p with
  | uninit => exact .inl ⟨rfl, .inr rfl⟩
  | idle => exact .inr (.inl ⟨rfl, .inr rfl⟩)
  | run pt => exact .inr (.inr ⟨pt, rfl, .inr (.inr rfl)⟩)
  | faulted => exact absurd rfl hp

/-- A written request changes SEQ as R36 allows. -/
theorem request_transition {i : Instr} (h : s.Inv) (hi : i.format = .req8)
    (hne : (request i (Instr.requestBody i) s).seq ≠ s.seq) :
    s.seq.transition (request i (Instr.requestBody i) s).seq := by
  rcases request_cases i (Instr.requestBody i) s with ⟨-, e⟩ | ⟨hf, -, e⟩ | ⟨hf, -, c, -, e⟩ | ⟨hf, hb, hacc, e⟩ <;>
    rw [e] at hne ⊢
  · exact absurd rfl hne
  · exact Seq.transition_faulted hf
  · exact Seq.transition_faulted hf
  · have hseq := seq_of_not_busy h hf hb
    rw [inited_of_acceptFault_none hi hacc] at hseq
    by_cases hinit : i = .init
    · subst hinit
      exact .inl ⟨hseq, .inl rfl⟩
    · rw [decide_eq_true hinit, if_pos rfl] at hseq
      rcases requestBody_seq hi hinit (accepted i s) with hidle | hleg
      · exact absurd (hidle.trans hseq.symm) hne
      · exact .inr (.inl ⟨hseq, .inl hleg⟩)

theorem writeReq_transition {q : Byte} (h : s.Inv) (ht : writeReq q s = .next t) (hne : t.seq ≠ s.seq) :
    s.seq.transition t.seq := by
  rcases writeReq_next ht with ⟨i, hq, he⟩ | rfl
  · have hi := (encode_of_decodeRequest hq).2
    rw [exec_request hi] at he
    cases he
    exact request_transition h hi hne
  · rcases illegalWord_cases s with e | ⟨c, e⟩ <;> rw [e] at hne ⊢
    · exact absurd rfl hne
    · exact Seq.transition_faulted (Ne.symm hne)

theorem unitStep_transition (ht : unitStep s = .next t) (hne : t.seq ≠ s.seq) : s.seq.transition t.seq := by
  rcases unitStep_next ht with ⟨pt, hs, hp⟩ | rfl
  · exact .inr (.inr ⟨pt, hs, pointStep_seq_within hs hp⟩)
  · exact absurd rfl hne

/-- The platform's reset next is what `resetNext` tests. -/
theorem resetNext_of_hardReset {rest : List CallerMove} (hq : s.callerQueue = .hardReset :: rest) :
    s.resetNext = true := by
  rw [State.resetNext, hq]

/-- Without a reset a step is the unit's own, a written request word, or one that leaves the unit but for ARG0 and ARG1
(log entries 1 and 25). -/
theorem step_cases_of_no_reset (ht : step s = .next t) (hreset : s.resetNext = false) :
    (∃ moves, unitStep (setQueue moves s) = .next t) ∨
    (∃ q rest, s.callerQueue = .writeReq q :: rest ∧ writeReq q (setQueue rest s) = .next t) ∨
    s.sameUnit t := by
  rcases step_cases ht with ⟨-, hu⟩ | ⟨rest, -, hu⟩ | ⟨-, -, -, hu⟩ | ⟨rest, -, -, rfl⟩ | hw |
    ⟨v, rest, -, rfl⟩ | ⟨v, rest, -, rfl⟩ | ⟨r, rest, -, rfl⟩ | ⟨a, v, rest, -, -, rfl⟩ | ⟨a, rest, -, -, rfl⟩ |
    ⟨rest, hq, -⟩
  · exact .inl ⟨s.callerQueue, hu⟩
  · exact .inl ⟨rest, hu⟩
  · exact .inl ⟨s.callerQueue, hu⟩
  · exact .inr (.inr (by simp [State.sameUnit]))
  · exact .inr (.inl hw)
  · exact .inr (.inr (by simp [State.sameUnit]))
  · exact .inr (.inr (by simp [State.sameUnit]))
  · exact .inr (.inr (by simp [State.sameUnit]))
  · exact .inr (.inr (by simp [State.sameUnit]))
  · exact .inr (.inr (by simp [State.sameUnit]))
  · exact absurd (resetNext_of_hardReset hq) (by simp [hreset])

theorem State.sameUnit.seq_eq (h : s.sameUnit t) : t.seq = s.seq := by
  simp only [State.sameUnit] at h
  simp only [h]

theorem State.sameUnit.sameBases (h : s.sameUnit t) : s.sameBases t := ⟨h.1, h.2.1⟩

/-- Settles O48: a request word takes UNINIT and IDLE to the first point of what it starts, a point's step stays in its
request or ends it, and the caller's other moves leave SEQ. -/
theorem seqTransitions : Obligations.SeqTransitions := by
  intro s t h ht hreset hne
  show s.seq.transition t.seq
  rcases step_cases_of_no_reset ht hreset with ⟨moves, hu⟩ | ⟨q, rest, -, hw⟩ | hsame
  · exact unitStep_transition (s := setQueue moves s) hu hne
  · exact writeReq_transition (s := setQueue rest s) (inv_setQueue h rest) hw hne
  · exact absurd hsame.seq_eq hne

/-! ### CMD_BASE and CTL_BASE -/

theorem poll_sameBases (done : Byte → Bool) (pt : Point) (s : State) : s.sameBases (poll done pt s) := by
  unfold poll
  split <;> exact ⟨rfl, rfl⟩

theorem nextWord_sameBases {l : Leg} {done : State → State} {u : State} (hu : s.sameBases u)
    (hdone : s.sameBases (done u)) : s.sameBases (nextWord l done u) := by
  rcases nextWord_cases l done u with e | e | e <;> rw [e]
  exacts [hu, hu, hdone]

theorem nextSnapWord_sameBases {done : State → State} {u : State} (hu : s.sameBases u)
    (hdone : s.sameBases (done u)) : s.sameBases (nextSnapWord done u) := by
  rcases nextSnapWord_cases done u with e | e <;> rw [e]
  exacts [hu, hdone]

theorem xferStep_sameBases {l : Leg} (ht : xferStep l s = .next t) : s.sameBases t := by
  cases l with
  | read =>
    obtain ⟨m, -, rfl⟩ := readWordStep_next ht
    exact nextWord_sameBases ⟨rfl, rfl⟩ ⟨rfl, rfl⟩
  | snapStart =>
    cases ht
    unfold snapStartStep
    exact nextSnapWord_sameBases ⟨by simp, by simp⟩ ⟨by simp [endOfStartSnap], by simp [endOfStartSnap]⟩
  | snapEnd =>
    cases ht
    unfold snapEndStep
    exact nextSnapWord_sameBases ⟨by simp, by simp⟩ ⟨by simp [endOfEndSnap], by simp [endOfEndSnap]⟩
  | write =>
    rcases writeWordStep_next ht with ⟨v, rfl⟩ | rfl
    · exact nextWord_sameBases ⟨rfl, rfl⟩ ⟨rfl, rfl⟩
    · exact ⟨rfl, rfl⟩

theorem legStep_sameBases {l : Leg} {p : Stage} (ht : legStep l p s = .next t) : s.sameBases t := by
  cases p with
  | bw => cases ht; exact poll_sameBases _ _ s
  | sel => cases ht; exact ⟨rfl, rfl⟩
  | cnt => cases ht; exact ⟨rfl, rfl⟩
  | l0 => cases ht; exact ⟨rfl, rfl⟩
  | l1 => cases ht; exact ⟨rfl, rfl⟩
  | l2 => cases ht; exact ⟨rfl, rfl⟩
  | cmd =>
    obtain ⟨l', -, rfl⟩ := issueTransfer_next ((exec_legCommand l s).symm.trans ht)
    exact ⟨rfl, rfl⟩
  | wrBsy => cases ht; exact poll_sameBases _ _ s
  | wrDrq => cases ht; exact poll_sameBases _ _ s
  | xfer => exact xferStep_sameBases ht

/-- No step of the unit's own writes the bases (R22, R130; INIT's status read neither: log entry 8). -/
theorem unitStep_sameBases (ht : unitStep s = .next t) : s.sameBases t := by
  rcases unitStep_next ht with ⟨pt, -, hp⟩ | rfl
  · cases pt with
    | initStatus =>
      cases hp
      unfold initStatusStep
      split <;> exact ⟨rfl, rfl⟩
    | initControl => cases hp; exact ⟨rfl, rfl⟩
    | leg l p => exact legStep_sameBases hp
    | flBsy => cases hp; exact poll_sameBases _ _ s
    | flCmd =>
      obtain ⟨-, rfl⟩ := execCacheFlush_next hp
      exact ⟨rfl, rfl⟩
  · exact ⟨rfl, rfl⟩

/-- No request but INIT writes the bases (R21, R22). -/
theorem requestBody_sameBases {i : Instr} (hne : i ≠ .init) (s : State) : s.sameBases (Instr.requestBody i s) := by
  cases i with
  | init => exact absurd rfl hne
  | seekRel =>
    show s.sameBases (seekRelBody s)
    unfold seekRelBody
    split <;> exact ⟨rfl, rfl⟩
  | read =>
    show s.sameBases (readBody s)
    unfold readBody
    split <;> exact ⟨rfl, rfl⟩
  | write =>
    show s.sameBases (writeBody s)
    unfold writeBody
    split <;> exact ⟨rfl, rfl⟩
  | _ => exact ⟨rfl, rfl⟩

/-- A written word that changes the bases is INIT's, accepted at a unit that is UNINIT (R130). -/
theorem writeReq_bases {q : Byte} (h : s.Inv) (ht : writeReq q s = .next t) (hne : ¬ s.sameBases t) :
    s.seq = .uninit ∧ q = 0x01#8 := by
  rcases writeReq_next ht with ⟨i, hq, he⟩ | rfl
  · obtain ⟨hbyte, hi⟩ := encode_of_decodeRequest hq
    rw [exec_request hi] at he
    cases he
    rcases request_cases i (Instr.requestBody i) s with ⟨-, e⟩ | ⟨-, -, e⟩ | ⟨-, -, c, -, e⟩ | ⟨hf, hb, hacc, e⟩ <;>
      rw [e] at hne
    · exact absurd ⟨rfl, rfl⟩ hne
    · exact absurd ⟨rfl, rfl⟩ hne
    · exact absurd ⟨rfl, rfl⟩ hne
    · by_cases hinit : i = .init
      · subst hinit
        have hseq := seq_of_not_busy h hf hb
        rw [inited_of_acceptFault_none hi hacc] at hseq
        exact ⟨hseq, hbyte.symm⟩
      · exact absurd (requestBody_sameBases hinit (accepted i s)) hne
  · rcases illegalWord_cases s with e | ⟨c, e⟩ <;> rw [e] at hne <;> exact absurd ⟨rfl, rfl⟩ hne

/-- Settles O49: only INIT's body writes the bases, and its acceptance asks for a unit without a handle. -/
theorem onlyInitWritesBases : Obligations.OnlyInitWritesBases := by
  intro s t h ht hreset hne
  rcases step_cases_of_no_reset ht hreset with ⟨moves, hu⟩ | ⟨q, rest, hq, hw⟩ | hsame
  · exact absurd (unitStep_sameBases (s := setQueue moves s) hu) hne
  · obtain ⟨hseq, rfl⟩ := writeReq_bases (s := setQueue rest s) (inv_setQueue h rest) hw hne
    exact ⟨hseq, rest, hq⟩
  · exact absurd hsame.sameBases hne

end Sys2Proof.Machine
end

section
/-! PROOFS. What the caller's next move does: the word that runs (R39, R82, R188), the register moves (R21 to R29), the
registers READ and WRITE latch (R30), the legal values of USTAT (R25) and the state after reset (R42). -/

namespace Sys2Proof.Machine

variable {s t : State}

/-! ### The word that runs -/

/-- A word that decodes runs as its request (R39). -/
theorem writeReq_of_decode {q : Byte} {i : Instr} (hq : decodeRequest q = .ok i) (s : State) :
    writeReq q s = exec i s := by
  unfold writeReq
  rw [hq]

/-- Settles O5: taking the write off the queue is the only thing the step does before `exec`. -/
theorem stepRunsWrittenRequest : Obligations.StepRunsWrittenRequest :=
  fun s _ _ rest hcaller hq => (step_of_callerQueue_cons hcaller).trans (writeReq_of_decode hq (setQueue rest s))

/-- No byte is both a request and a device command (R82, R92). -/
theorem decodeCommand_of_decodeRequest {q : Byte} {i : Instr} (hq : decodeRequest q = .ok i) :
    ∃ e, decodeCommand q = .error e := by
  obtain ⟨rfl, hi⟩ := encode_of_decodeRequest hq
  cases i with
  | readSectors => cases hi
  | writeSectors => cases hi
  | cacheFlush => cases hi
  | _ => exact ⟨_, rfl⟩

/-- Every device command has a point at which it is due (R188). -/
theorem commandPoint_of_decodeCommand {c : Byte} {i : Instr} (hc : decodeCommand c = .ok i) :
    ∃ pt, commandPoint i = some pt ∧ dueCommand (.run pt) = some i := by
  unfold decodeCommand at hc
  split_ifs at hc <;> cases hc <;> exact ⟨_, rfl, rfl⟩

/-- At a command point the unit's own step is the command due there (R184, R185, R188). -/
theorem unitStep_of_dueCommand {i : Instr} (hdue : dueCommand s.seq = some i) : unitStep s = exec i s := by
  unfold dueCommand at hdue
  split at hdue
  next l hs => cases hdue; unfold unitStep; rw [hs]; rfl
  next hs => cases hdue; unfold unitStep; rw [hs]; rfl
  next => cases hdue

/-- A command that is due is issued (R184, R185). -/
theorem exec_of_dueCommand_next {i : Instr} (hdue : dueCommand s.seq = some i) : ∃ t, exec i s = .next t := by
  unfold dueCommand at hdue
  split at hdue
  next l hs =>
    cases hdue
    refine ⟨goPoint (.leg l .wrBsy) (zeroLoops (issue l.command s)), ?_⟩
    rw [exec_legCommand]
    unfold issueTransfer
    rw [hs]
    exact if_pos rfl
  next hs => cases hdue; exact ⟨_, if_pos hs⟩
  next => cases hdue

theorem placeWord_of_decodeRequest {q : Byte} {i : Instr} (hq : decodeRequest q = .ok i) (s : State) :
    placeWord q s = placeRequest q s := by
  obtain ⟨e, he⟩ := decodeCommand_of_decodeRequest hq
  unfold placeWord
  rw [he]

theorem placeWord_of_decodeCommand {c : Byte} {i : Instr} {pt : Point} (hc : decodeCommand c = .ok i)
    (hpt : commandPoint i = some pt) (s : State) : placeWord c s = placeAt pt s := by
  unfold placeWord
  rw [hc]
  show (match commandPoint i with | some pt => placeAt pt s | none => placeRequest c s) = _
  rw [hpt]

/-- The placed write to REQ is the next move (log entry 13). -/
theorem step_placeRequest (q : Byte) (s : State) : step (placeRequest q s) = writeReq q s :=
  step_of_callerQueue_cons (s := placeRequest q s) (m := .writeReq q) (rest := s.callerQueue) rfl

/-- At the placed point the unit moves next (log entry 13). -/
theorem step_placeAt (pt : Point) (s : State) :
    step (placeAt pt s) = unitStep { s with seq := .run pt, ustat := ustatOf true true false s.err } :=
  step_of_callerQueue_cons (s := placeAt pt s) (m := .yield) (rest := s.callerQueue) rfl

/-- Settles O7: a request is placed as the caller's next write to REQ, a device command by its point, where it is due
and so issued. -/
theorem placedWordRunsNext : Obligations.PlacedWordRunsNext := by
  refine fun s w i _ => ⟨fun hq => ?_, fun hc => ?_⟩
  · unfold State.withFetchWord
    rw [placeWord_of_decodeRequest hq, step_placeRequest, writeReq_of_decode hq]
  · obtain ⟨pt, hpt, hdue⟩ := commandPoint_of_decodeCommand hc
    have hstep : step (s.withFetchWord 8 w) =
        exec i { s with seq := .run pt, ustat := ustatOf true true false s.err } := by
      unfold State.withFetchWord
      rw [placeWord_of_decodeCommand hc hpt, step_placeAt, unitStep_of_dueCommand hdue]
    exact ⟨pt, hdue, hstep, hstep ▸ exec_of_dueCommand_next hdue⟩

/-! ### The caller's register moves -/

/-- Settles O51: each move is one register of the model, and REQ reads as 0 (R26). -/
theorem callerRegisterMoves : Obligations.CallerRegisterMoves := by
  refine fun s rest => ⟨fun r hq => ?_, fun v hq => ?_, fun v hq => ?_⟩
  · refine ⟨setCallerIn (s.callerRead r) (setQueue rest s), step_of_callerQueue_cons hq, by simp [State.sameUnit],
      ⟨rfl, rfl⟩, ⟨rfl, rfl⟩, fun _ => rfl, rfl, ?_⟩
    cases r with
    | cmdBase => exact BitVec.toNat_setWidth_of_le (by decide)
    | ctlBase => exact BitVec.toNat_setWidth_of_le (by decide)
    | ustat => exact BitVec.toNat_setWidth_of_le (by decide)
    | _ => rfl
  · exact ⟨setArg0 v (setQueue rest s), step_of_callerQueue_cons hq, rfl, rfl, by simp [State.sameUnit], ⟨rfl, rfl⟩,
      fun _ => rfl⟩
  · exact ⟨setArg1 v (setQueue rest s), step_of_callerQueue_cons hq, rfl, rfl, by simp [State.sameUnit], ⟨rfl, rfl⟩,
      fun _ => rfl⟩

/-! ### The transfer registers -/

/-- The latched numbers are exact when the transfer passes its checks (R30, R256). -/
theorem latchTransfer_exact (op : TransferOp) (h : s.TransferFits) :
    (latchTransfer op s).tOff.toNat = s.pos.toNat % 512 ∧ (latchTransfer op s).tLba.toNat = s.pos.toNat / 512 ∧
      (latchTransfer op s).tSect.toNat = requiredSectors s.pos.toNat s.arg1.toNat ∧
      (latchTransfer op s).tEnd.toNat = s.pos.toNat + s.arg1.toNat := by
  obtain ⟨hend, -, hsect⟩ := h
  have hpos := s.pos.isLt
  simp only [latchTransfer_tOff, latchTransfer_tLba, latchTransfer_tSect, latchTransfer_tEnd, sectorOffset,
    sectorIndex, Config.sectorBytes, BitVec.toNat_ofNat, BitVec.toNat_add]
  omega

/-- Where the operands fit, checks 7 to 9 of R256 pass. -/
theorem transferFault_of_fits (h : s.TransferFits) : transferFault s = none := by
  obtain ⟨hend, hbuf, hsect⟩ := h
  rw [transferFault, if_neg (by simp only [Config.posLimit]; omega), if_neg (by simp only [Config.memBytes]; omega),
    if_neg (by simp only [Config.maxSectors]; omega)]

/-- A unit with a handle and no request is neither faulted nor busy (R35). -/
theorem State.Ready.accepts (h : s.Ready) : s.seq ≠ .faulted ∧ s.busy = false ∧ s.inited = true := by
  obtain ⟨hseq, hstatus⟩ := h
  have hbusy := hstatus.busy
  have hinit := hstatus.init
  rw [hseq] at hbusy hinit
  exact ⟨by simp [hseq], hbusy, hinit⟩

/-- A transfer that fits is accepted (R256). -/
theorem State.Ready.transfer_accepted (h : s.Ready) (hfit : s.TransferFits) :
    (handleFault s).or (transferFault s) = none := by
  rw [handleFault, if_pos h.accepts.2.2, transferFault_of_fits hfit, Option.or_none]

/-- A READ whose operands fit is accepted, whatever its length (R39, R200). -/
theorem execRead_of_ready (h : s.Ready) (hfit : s.TransferFits) :
    exec .read s = .next (readBody (accepted .read s)) :=
  congrArg _ (request_accepted .read readBody h.accepts.1 h.accepts.2.1 (h.transfer_accepted hfit))

/-- A WRITE whose operands fit is accepted, whatever its length (R39, R220). -/
theorem execWrite_of_ready (h : s.Ready) (hfit : s.TransferFits) :
    exec .write s = .next (writeBody (accepted .write s)) :=
  congrArg _ (request_accepted .write writeBody h.accepts.1 h.accepts.2.1 (h.transfer_accepted hfit))

/-- The latched registers of READ are those of `latchTransfer` (R200). -/
theorem readBody_sameTransfer (s : State) : (latchTransfer .read s).sameTransfer (readBody s) := by
  unfold readBody
  split <;> exact ⟨rfl, rfl, rfl, rfl, rfl, rfl, rfl⟩

/-- So are those of WRITE (R220). -/
theorem writeBody_sameTransfer (s : State) : (latchTransfer .write s).sameTransfer (writeBody s) := by
  unfold writeBody
  split <;> exact ⟨rfl, rfl, rfl, rfl, rfl, rfl, rfl⟩

/-- A state with the registers `latchTransfer` writes holds the table of R30. -/
theorem latched_of_sameTransfer {op : TransferOp} {i : Instr} (hfit : s.TransferFits)
    (h : (latchTransfer op (accepted i s)).sameTransfer t) :
    t.tOp = op ∧ t.tBuf = s.arg0 ∧ t.tL = s.arg1 ∧ t.tOff.toNat = s.pos.toNat % 512 ∧
      t.tLba.toNat = s.pos.toNat / 512 ∧ t.tSect.toNat = requiredSectors s.pos.toNat s.arg1.toNat ∧
      t.tEnd.toNat = s.pos.toNat + s.arg1.toNat := by
  obtain ⟨hop, hbuf, hlen, hoff, hlba, hsect, hend⟩ := h
  have hfit' : (accepted i s).TransferFits := ⟨hfit.endsInRange, hfit.bufferInRange, hfit.sectorsMax⟩
  obtain ⟨eoff, elba, esect, eend⟩ := latchTransfer_exact op hfit'
  exact ⟨hop, hbuf, hlen, hoff ▸ eoff, hlba ▸ elba, hsect ▸ esect, hend ▸ eend⟩

/-- Settles O12: both requests latch before they look at the length (R200, R220). -/
theorem transferRegistersLatched : Obligations.TransferRegistersLatched := by
  rintro s i op hready hfit (⟨rfl, rfl⟩ | ⟨rfl, rfl⟩)
  · exact ⟨_, execRead_of_ready hready hfit, latched_of_sameTransfer hfit (readBody_sameTransfer _)⟩
  · exact ⟨_, execWrite_of_ready hready hfit, latched_of_sameTransfer hfit (writeBody_sameTransfer _)⟩

/-! ### USTAT and reset -/

/-- The result codes (R88). -/
theorem ResultCode.code_cases (r : ResultCode) : r.code = 0x00#8 ∨ r.code = 0x01#8 ∨ r.code = 0x02#8 := by
  cases r <;> simp [ResultCode.code]

/-- The codes of the fatal faults are `0x80` to `0x88` (R88). -/
theorem FatalCode.code_range (c : FatalCode) : 0x80 ≤ c.code.toNat ∧ c.code.toNat ≤ 0x88 := by
  cases c <;> simp [FatalCode.code]

/-- SEQ is running at a point and nowhere else (R35). -/
theorem Seq.running_iff (q : Seq) : q.running = true ↔ ∃ p, q = .run p := by
  cases q <;> simp [Seq.running]

/-- Settles O53: each clause is one part of `State.StatusOk`, read at the SEQ it speaks of. -/
theorem ustatLegalValues : Obligations.UstatLegalValues := by
  intro s h
  obtain ⟨hres, hbusy, hfault, hinit, herr⟩ := h.status
  refine ⟨hres, ?_, ?_, ?_, ?_, ?_, ?_, ?_⟩
  · intro hf
    rw [hf] at herr
    obtain ⟨r, hr⟩ := herr
    rw [hr]
    exact r.code_cases
  · intro hf
    rw [hf] at herr hfault
    obtain ⟨c, hc⟩ := herr
    have hseq : s.seq = .faulted := of_decide_eq_true hfault.symm
    rw [hbusy, hseq, hc]
    exact ⟨rfl, c.code_range⟩
  · rw [hbusy]
    exact s.seq.running_iff
  · rw [hfault]
    exact decide_eq_true_iff
  · intro hs; rw [hs] at hinit; exact hinit
  · intro hs; rw [hs] at hinit; exact hinit
  · rintro (hs | hs) <;> rw [hs] at hinit <;> exact hinit

/-- Settles O42: the reset state is written out in the model; a snapshot after reset is 256 elements without a value. -/
theorem resetValues : Obligations.ResetValues := by
  have hsnap : ∀ w, w < 256 → (Vector.replicate 256 none : Snapshot)[w]? = some none := fun w hw => by simp [hw]
  exact ⟨rfl, rfl, rfl, rfl, rfl, rfl, rfl, rfl, rfl, fun w hw => ⟨hsnap w hw, hsnap w hw⟩, rfl, rfl⟩

/-- Settles O54: the reset state is its own hardware reset, and its memory and device are legal. -/
theorem resetIsLegal : Obligations.ResetIsLegal :=
  inv_hardReset (s := State.reset) rfl rfl trivial

end Sys2Proof.Machine
end

section
/-! PROOFS. Caller memory (R51, R65, R68): the bytes a data word moves, the operations that leave caller memory as it is,
and the caller's own accesses (log entry 11). -/

namespace Sys2Proof.Machine

variable {s t : State}

/-! ### The bytes a data word moves -/

/-- INSIDE is the class of the words with both bytes in the buffer (R166). -/
theorem idx_of_wordClass_inside {idx : Int} {l : Nat} (h : wordClass idx l = .inside) : 0 ≤ idx ∧ idx + 1 < l := by
  unfold wordClass at h
  split_ifs at h
  omega

/-- STRADDLE_HIGH is the class of the words whose low byte is the buffer's last (R166). -/
theorem idx_of_wordClass_straddleHigh {idx : Int} {l : Nat} (h : wordClass idx l = .straddleHigh) :
    0 ≤ idx ∧ idx < l := by
  unfold wordClass at h
  split_ifs at h
  omega

/-- A word moves bytes of the buffer only (R168). -/
theorem lt_of_mem_movedIndices {idx : Int} {l i : Nat} (hl : 0 < l) (hi : i ∈ movedIndices idx l) : i < l := by
  unfold movedIndices at hi
  split at hi
  next => rw [List.mem_singleton] at hi; omega
  next => cases hi
  next hc =>
    have := idx_of_wordClass_inside hc
    simp only [List.mem_cons, List.not_mem_nil, or_false] at hi
    omega
  next hc =>
    have := idx_of_wordClass_straddleHigh hc
    rw [List.mem_singleton] at hi
    omega
  next => cases hi

/-- MemWrite leaves every other byte. -/
theorem memWrite_get_of_ne {m m' : Memory} {a b : Nat} {v : Byte} (h : memWrite m a v = some m') (hm : m.wf = true)
    (hb : b ≠ a) : m'.get b = m.get b := by
  obtain ⟨-, rfl⟩ := memWrite_eq_some.1 h
  rw [Memory.get_set m hm, if_neg hb]

/-- The scatter of a word leaves every byte whose index the word does not move (R202). -/
theorem scatter_get_of_not_moved {buf l a : Nat} {idx : Int} {v : Word16} {m m' : Memory}
    (h : scatter buf idx l v m = some m') (hm : m.wf = true) (ha : ∀ i ∈ movedIndices idx l, a ≠ buf + i) :
    m'.get a = m.get a := by
  unfold scatter at h
  unfold movedIndices at ha
  cases hc : wordClass idx l with
  | straddleLow =>
    rw [hc] at h ha
    exact memWrite_get_of_ne h hm (ha 0 (by simp))
  | before => rw [hc] at h; cases h; rfl
  | inside =>
    rw [hc] at h ha
    dsimp only at h
    split at h
    next m₁ h₁ =>
      calc m'.get a = m₁.get a := memWrite_get_of_ne h (memWrite_wf h₁ hm) (ha (idx.toNat + 1) (by simp))
        _ = m.get a := memWrite_get_of_ne h₁ hm (ha idx.toNat (by simp))
    next => cases h
  | straddleHigh =>
    rw [hc] at h ha
    exact memWrite_get_of_ne h hm (ha idx.toNat (by simp))
  | after => rw [hc] at h; cases h; rfl

/-- The scatter of a word changes bytes of the buffer only (R65). -/
theorem mem_buffer_of_scatter {buf l a : Nat} {idx : Int} {v : Word16} {m m' : Memory}
    (h : scatter buf idx l v m = some m') (hm : m.wf = true) (hl : 0 < l) (hne : m'.get a ≠ m.get a) :
    buf ≤ a ∧ a < buf + l := by
  by_contra hout
  refine hne (scatter_get_of_not_moved h hm fun i hi => ?_)
  have := lt_of_mem_movedIndices hl hi
  omega

/-! ### The operations that leave caller memory -/

@[simp] theorem poll_mem (done : Byte → Bool) (pt : Point) (s : State) : (poll done pt s).mem = s.mem := by
  unfold poll
  split <;> rfl

/-- A data word's loop update leaves caller memory when the end of the phase does. -/
theorem nextWord_mem {l : Leg} {done : State → State} (hdone : (done s).mem = s.mem) :
    (nextWord l done s).mem = s.mem := by
  rcases nextWord_cases l done s with e | e | e <;> rw [e]
  exacts [rfl, rfl, hdone]

theorem nextSnapWord_mem {done : State → State} (hdone : (done s).mem = s.mem) :
    (nextSnapWord done s).mem = s.mem := by
  rcases nextSnapWord_cases done s with e | e <;> rw [e]
  exacts [rfl, hdone]

/-- The data words of WRITE and of its snapshots leave caller memory (R204, R224). -/
theorem xferStep_mem {l : Leg} (hl : l ≠ .read) (ht : xferStep l s = .next t) : t.mem = s.mem := by
  cases l with
  | read => exact absurd rfl hl
  | snapStart => cases ht; exact nextSnapWord_mem rfl
  | snapEnd => cases ht; exact nextSnapWord_mem rfl
  | write =>
    rcases writeWordStep_next ht with ⟨v, rfl⟩ | rfl
    · exact nextWord_mem rfl
    · rfl

/-- A leg's step leaves caller memory, but for READ's data words (R65). -/
theorem legStep_mem {l : Leg} {p : Stage} (hread : ¬ (l = .read ∧ p = .xfer)) (ht : legStep l p s = .next t) :
    t.mem = s.mem := by
  cases p with
  | bw => cases ht; exact poll_mem _ _ s
  | sel => cases ht; rfl
  | cnt => cases ht; rfl
  | l0 => cases ht; rfl
  | l1 => cases ht; rfl
  | l2 => cases ht; rfl
  | cmd =>
    obtain ⟨l', -, rfl⟩ := issueTransfer_next ((exec_legCommand l s).symm.trans ht)
    rfl
  | wrBsy => cases ht; exact poll_mem _ _ s
  | wrDrq => cases ht; exact poll_mem _ _ s
  | xfer => exact xferStep_mem (fun hl => hread ⟨hl, rfl⟩) ht

/-- A step of the unit's own leaves caller memory, but for READ's data words (R65). -/
theorem unitStep_mem (hread : s.seq ≠ .run (.leg .read .xfer)) (ht : unitStep s = .next t) : t.mem = s.mem := by
  rcases unitStep_next ht with ⟨pt, hs, hp⟩ | rfl
  · cases pt with
    | initStatus =>
      cases hp
      unfold initStatusStep
      split <;> rfl
    | initControl => cases hp; rfl
    | leg l p =>
      refine legStep_mem ?_ hp
      rintro ⟨rfl, rfl⟩
      exact hread hs
    | flBsy => cases hp; exact poll_mem _ _ s
    | flCmd =>
      obtain ⟨-, rfl⟩ := execCacheFlush_next hp
      rfl
  · rfl

/-- No request touches caller memory in its acceptance step (R40). -/
theorem requestBody_mem (i : Instr) (s : State) : (Instr.requestBody i s).mem = s.mem := by
  cases i with
  | seekRel =>
    show (seekRelBody s).mem = s.mem
    unfold seekRelBody
    split <;> rfl
  | read =>
    show (readBody s).mem = s.mem
    unfold readBody
    split <;> rfl
  | write =>
    show (writeBody s).mem = s.mem
    unfold writeBody
    split <;> rfl
  | _ => rfl

/-- A written request word leaves caller memory (R39, R83). -/
theorem writeReq_mem {q : Byte} (ht : writeReq q s = .next t) : t.mem = s.mem := by
  rcases writeReq_next ht with ⟨i, hq, he⟩ | rfl
  · rw [exec_request (encode_of_decodeRequest hq).2] at he
    cases he
    rcases request_cases i (Instr.requestBody i) s with ⟨-, e⟩ | ⟨-, -, e⟩ | ⟨-, -, c, -, e⟩ | ⟨-, -, -, e⟩ <;> rw [e]
    · rfl
    · rfl
    · exact requestBody_mem i (accepted i s)
  · rcases illegalWord_cases s with e | ⟨c, e⟩ <;> rw [e]
    rfl

/-- Without a memory access of the caller a step is the unit's own or leaves caller memory (R51; log entry 1). -/
theorem step_unit_or_mem (ht : step s = .next t) (hmove : s.memMoveNext = none) :
    (∃ moves, unitStep (setQueue moves s) = .next t) ∨ t.mem = s.mem := by
  unfold State.memMoveNext at hmove
  rcases step_cases ht with ⟨-, hu⟩ | ⟨rest, -, hu⟩ | ⟨-, -, -, hu⟩ | ⟨rest, -, -, rfl⟩ | ⟨q, rest, -, hw⟩ |
    ⟨v, rest, -, rfl⟩ | ⟨v, rest, -, rfl⟩ | ⟨r, rest, -, rfl⟩ | ⟨a, v, rest, hq, -, -⟩ | ⟨a, rest, hq, -, -⟩ |
    ⟨rest, -, rfl⟩
  · exact .inl ⟨s.callerQueue, hu⟩
  · exact .inl ⟨rest, hu⟩
  · exact .inl ⟨s.callerQueue, hu⟩
  · exact .inr rfl
  · exact .inr (writeReq_mem (s := setQueue rest s) hw)
  · exact .inr rfl
  · exact .inr rfl
  · exact .inr rfl
  · rw [hq] at hmove; cases hmove
  · rw [hq] at hmove; cases hmove
  · exact .inr rfl

/-- READ's data word leaves the memory its scatter gives (R201, R202). -/
theorem readWordStep_mem (ht : readWordStep s = .next t) :
    scatter s.tBuf.toNat s.wordIdx s.tL.toNat (portIn16 s).1 s.mem = some t.mem := by
  obtain ⟨m, hm, rfl⟩ := readWordStep_next ht
  rw [hm, nextWord_mem (done := endOfRead) rfl, setMem_mem]

/-- A step of the unit's own changes bytes of caller memory in READ's data phase and in the buffer only (R51, R65). -/
theorem mem_buffer_of_unitStep {a : Nat} (h : s.Inv) (ht : unitStep s = .next t) (hne : t.mem.get a ≠ s.mem.get a) :
    s.seq = .run (.leg .read .xfer) ∧ s.tBuf.toNat ≤ a ∧ a < s.tBuf.toNat + s.tL.toNat := by
  by_cases hs : s.seq = .run (.leg .read .xfer)
  · obtain ⟨-, -, -, ⟨-, htransfer, -, -⟩, -⟩ := running_facts h hs
    have hword : readWordStep s = .next t := by unfold unitStep at ht; rwa [hs] at ht
    exact ⟨hs, mem_buffer_of_scatter (readWordStep_mem hword) h.memWf htransfer.nonempty hne⟩
  · exact absurd (congrArg (·.get a) (unitStep_mem hs ht)) hne

/-- Settles O50: of the steps that are no memory access of the caller only READ's data word touches caller memory, and its
scatter moves bytes of the buffer only. -/
theorem onlyReadWritesItsBuffer : Obligations.OnlyReadWritesItsBuffer := by
  intro s t a h ht hmove hne
  rcases step_unit_or_mem ht hmove with ⟨moves, hu⟩ | hmem
  · exact mem_buffer_of_unitStep (s := setQueue moves s) (inv_setQueue h moves) hu hne
  · exact absurd (congrArg (·.get a) hmem) hne

/-! ### The caller's memory accesses -/

theorem callerWriteMem_of_owned {a : Word64} (v : Byte) (h : ownedByUnit s a.toNat = true) :
    callerWriteMem a v s = .refused .ownershipBroken :=
  if_pos h

theorem callerWriteMem_of_not_owned {a : Word64} (v : Byte) (h : ownedByUnit s a.toNat = false) :
    callerWriteMem a v s = .next (setMem (s.mem.set a.toNat v) s) :=
  if_neg (Bool.eq_false_iff.mp h)

theorem callerReadMem_of_owned {a : Word64} (h : ownedByUnit s a.toNat = true) :
    callerReadMem a s = .refused .ownershipBroken :=
  if_pos h

theorem callerReadMem_of_not_owned {a : Word64} (h : ownedByUnit s a.toNat = false) :
    callerReadMem a s = .next (setCallerIn (BitVec.setWidth 64 (s.mem.get a.toNat)) s) :=
  if_neg (Bool.eq_false_iff.mp h)

@[simp] theorem setQueue_ownedByUnit (q : List CallerMove) (s : State) (a : Nat) :
    ownedByUnit (setQueue q s) a = ownedByUnit s a := rfl

/-- Settles O52: the caller's access is refused inside the buffer of a running request; outside it a write is one byte of
memory and a read one byte's value. -/
theorem callerMemoryMoves : Obligations.CallerMemoryMoves := by
  refine fun s a rest => ⟨fun v hq hwf => ?write, fun hq => ?read⟩
  case write =>
    rw [step_of_callerQueue_cons hq, ← setQueue_ownedByUnit rest]
    refine ⟨callerWriteMem_of_owned v, fun ho => ⟨_, callerWriteMem_of_not_owned v ho, ?_, fun b hb => ?_,
      by simp [State.sameUnit], ⟨rfl, rfl⟩, ⟨rfl, rfl⟩⟩⟩
    · exact (Memory.get_set s.mem hwf a.toNat a.toNat v).trans (if_pos rfl)
    · exact (Memory.get_set s.mem hwf a.toNat b v).trans (if_neg hb)
  case read =>
    rw [step_of_callerQueue_cons hq, ← setQueue_ownedByUnit rest]
    exact ⟨callerReadMem_of_owned, fun ho => ⟨_, callerReadMem_of_not_owned ho, BitVec.toNat_setWidth_of_le (by decide),
      by simp [State.sameUnit], ⟨rfl, rfl⟩, ⟨rfl, rfl⟩, fun _ => rfl⟩⟩

end Sys2Proof.Machine
end

section
/-! PROOFS. The encoding (R80 to R97): encoder and decoders agree on both surfaces, so the opcode maps reject every other
byte; what an illegal word does, and what the moves of a written request leave behind. -/

namespace Sys2Proof.Machine

variable {s : State}

/-! ### Encoding and decoding agree -/

theorem wellFormedOn_iff {f : Format} {i : Instr} : i.wellFormedOn f = true ↔ i.format = f := beq_iff_eq

/-- An instruction decodes from its byte on its own surface (R82, R92). -/
theorem decodeOn_encode (i : Instr) : decodeOn i.format (encode i) = .ok i := by
  cases i <;> rfl

/-- A request decodes from its word (R82). -/
theorem decodeRequest_encode {i : Instr} (hi : i.format = .req8) : decodeRequest (encode i) = .ok i := by
  have h := decodeOn_encode i
  rwa [hi] at h

/-- A byte that decodes to a device command is that command's byte, on the command surface (R92). -/
theorem encode_of_decodeCommand {c : Byte} {i : Instr} (h : decodeCommand c = .ok i) :
    encode i = c ∧ i.format = .devcmd8 := by
  unfold decodeCommand at h
  split_ifs at h with h20 h30 hE7
  · cases h; exact ⟨h20.symm, rfl⟩
  · cases h; exact ⟨h30.symm, rfl⟩
  · cases h; exact ⟨hE7.symm, rfl⟩

/-- Settles O3: every instruction decodes from its byte on its own surface, the only one where it is well formed, and
each decoder answers an instruction only for that instruction's byte. -/
theorem encodeDecodeAgree : Obligations.EncodeDecodeAgree := by
  refine ⟨fun f i hi => ?_, fun f b i hb => ?_⟩
  · obtain rfl := wellFormedOn_iff.mp hi
    exact decodeOn_encode i
  · rw [wellFormedOn_iff]
    cases f with
    | req8 => exact encode_of_decodeRequest hb
    | devcmd8 => exact encode_of_decodeCommand hb

/-! ### The opcode maps -/

/-- The request words are 1 to 8 (R82). -/
theorem encode_range_of_req8 {i : Instr} (hi : i.format = .req8) : 1 ≤ (encode i).toNat ∧ (encode i).toNat ≤ 8 := by
  cases i with
  | readSectors => cases hi
  | writeSectors => cases hi
  | cacheFlush => cases hi
  | _ => decide

/-- The decoder rejects 0 and everything from 9 on: no request has such a word (R82, R83). -/
theorem decodeRequest_error_of_range {q : Byte} (hq : q.toNat = 0 ∨ 9 ≤ q.toNat) : ∃ e, decodeRequest q = .error e := by
  cases h : decodeRequest q with
  | error e => exact ⟨e, rfl⟩
  | ok i =>
    obtain ⟨rfl, hi⟩ := encode_of_decodeRequest h
    have hrange := encode_range_of_req8 hi
    omega

/-- Settles O1: the eight words are those of the encoder, and no request has another. -/
theorem requestWordMap : Obligations.RequestWordMap :=
  ⟨decodeOn_encode .init, decodeOn_encode .seekAbs, decodeOn_encode .seekRel, decodeOn_encode .seekEnd,
    decodeOn_encode .read, decodeOn_encode .write, decodeOn_encode .flush, decodeOn_encode .rsc,
    fun _ => decodeRequest_error_of_range⟩

/-- Settles O2: the three bytes are those of the encoder, and the decoder tests for no other. -/
theorem commandByteMap : Obligations.CommandByteMap :=
  ⟨decodeOn_encode .readSectors, decodeOn_encode .writeSectors, decodeOn_encode .cacheFlush,
    fun _ h20 h30 hE7 => ⟨.notACommand, by rw [decodeCommand, if_neg h20, if_neg h30, if_neg hE7]⟩⟩

/-- Settles O9: each constructor's code is its row of the table. -/
theorem errCodeTable : Obligations.ErrCodeTable :=
  ⟨rfl, rfl, rfl, rfl, rfl, rfl, rfl, rfl, rfl, rfl, rfl, rfl⟩

/-! ### An illegal word -/

/-- Past checks 1 and 2 a written word is taken up (R256). -/
theorem gated_of_not_busy (hf : s.seq ≠ .faulted) (hb : s.busy = false) (k : State → State) : gated s k = k s := by
  rw [gated, if_neg hf, if_neg (Bool.eq_false_iff.mp hb)]

/-- A word that does not decode is an illegal word (R83). -/
theorem writeReq_of_decode_error {q : Byte} {e : DecodeError} (hq : decodeRequest q = .error e) (s : State) :
    writeReq q s = .next (illegalWord s) := by
  unfold writeReq
  rw [hq]

/-- Raising a fault changes USTAT and SEQ as R255 says, and nothing else (R260). -/
theorem raiseFault_faultedWith (c : FatalCode) (s : State) : s.faultedWith c (raiseFault c s) := by
  refine ⟨rfl, rfl, rfl, rfl, rfl, ?_⟩
  simp [State.quiet, State.sameBases, State.sameOperands, State.sameTransfer, State.sameLoops, State.sameSnaps,
    State.sameCaller, State.sameBytes, State.noTransaction]

/-- A word that does not decode raises ILLEGAL_REQUEST when the unit is neither FAULTED nor BUSY (R83, R256 check 3). -/
theorem writeReq_faultedWith_of_decode_error {q : Byte} {e : DecodeError} (hq : decodeRequest q = .error e)
    (hf : s.seq ≠ .faulted) (hb : s.busy = false) :
    ∃ t, writeReq q s = .next t ∧ s.faultedWith .illegalRequest t := by
  have hword : illegalWord s = raiseFault .illegalRequest s := gated_of_not_busy hf hb _
  exact ⟨_, writeReq_of_decode_error hq s, hword ▸ raiseFault_faultedWith .illegalRequest s⟩

/-- Settles O10: the decoder answers every word, a request of the request surface or an error, and a word it rejects
raises the fault. -/
theorem illegalWordFaults : Obligations.IllegalWordFaults := by
  refine ⟨fun q => ?_, fun s q hq hf hb => ?_⟩
  · cases h : decodeRequest q with
    | ok i => exact .inl ⟨i, rfl, (encode_of_decodeRequest h).2⟩
    | error e => exact .inr ⟨e, rfl⟩
  · obtain ⟨e, he⟩ := decodeRequest_error_of_range hq
    exact writeReq_faultedWith_of_decode_error he hf hb

/-! ### A written request -/

/-- ARG0 after the operand writes of a written request (R84). -/
def WrittenRequest.arg0After (s : State) : WrittenRequest → Word64
  | .init cmd ctl => BitVec.setWidth 64 (ctl ++ cmd)
  | .seekAbs pos => pos
  | .seekRel delta => BitVec.ofInt 64 delta
  | .seekEnd delta => BitVec.ofInt 64 delta
  | .read buf _ => buf
  | .write buf _ => buf
  | .flush => s.arg0
  | .rsc len => len

/-- ARG1 after the operand writes of a written request: the length of READ and WRITE (R84). -/
def WrittenRequest.arg1After (s : State) : WrittenRequest → Word64
  | .read _ len => len
  | .write _ len => len
  | _ => s.arg1

/-- The state after the operand writes of a written request, with the moves `rest` still to come (R84, R96). -/
def operandsPlaced (w : WrittenRequest) (rest : List CallerMove) (s : State) : State :=
  setArg1 (w.arg1After s) (setArg0 (w.arg0After s) (setQueue rest s))

/-- Writing ARG0 is one step (R27). -/
theorem steps_writeArg0 {v : Word64} {rest : List CallerMove} (hq : s.callerQueue = .writeArg0 v :: rest) :
    steps 1 s = .next (setArg0 v (setQueue rest s)) :=
  steps_one (step_of_callerQueue_cons hq)

/-- Writing ARG1 is one step (R28). -/
theorem steps_writeArg1 {u : Word64} {rest : List CallerMove} (hq : s.callerQueue = .writeArg1 u :: rest) :
    steps 1 s = .next (setArg1 u (setQueue rest s)) :=
  steps_one (step_of_callerQueue_cons hq)

/-- Writing ARG0 and then ARG1 is two steps (R27, R28). -/
theorem steps_writeArgs {v u : Word64} {rest : List CallerMove}
    (hq : s.callerQueue = .writeArg0 v :: .writeArg1 u :: rest) :
    steps 2 s = .next (setArg1 u (setArg0 v (setQueue rest s))) :=
  steps_trans (steps_writeArg0 hq) (steps_writeArg1 rfl)

/-- The operand writes of a written request run in one step each and place the operands (R84, R96). -/
theorem steps_operandMoves {w : WrittenRequest} {rest : List CallerMove}
    (hq : s.callerQueue = operandMoves w ++ rest) :
    steps (operandMoves w).length s = .next (operandsPlaced w rest s) := by
  cases w with
  | flush =>
    obtain rfl : s.callerQueue = rest := hq
    rfl
  | read => exact steps_writeArgs hq
  | write => exact steps_writeArgs hq
  | _ => exact steps_writeArg0 hq

/-- A written request has a word of the request surface (R96). -/
theorem writtenInstr_format (w : WrittenRequest) : (writtenInstr w).format = .req8 := by
  cases w <;> rfl

/-- INIT's operands come back out of ARG0 (R84). -/
theorem initBases_of_placed (cmd ctl : Word16) :
    initCmdBase (BitVec.setWidth 64 (ctl ++ cmd)) = cmd ∧ initCtlBase (BitVec.setWidth 64 (ctl ++ cmd)) = ctl :=
  ⟨(BitVec.extractLsb'_setWidth_of_le (by decide)).trans BitVec.extractLsb'_append_eq_right,
    (BitVec.extractLsb'_setWidth_of_le (by decide)).trans BitVec.extractLsb'_append_eq_left⟩

/-- A delta in the signed 64-bit range comes back out of ARG0 (R84). -/
theorem toInt_of_placed_delta {delta : Int} (hlo : -2 ^ 63 ≤ delta) (hhi : delta < 2 ^ 63) :
    (BitVec.ofInt 64 delta).toInt = delta :=
  BitVec.toInt_ofInt_eq_self (by decide) hlo hhi

/-- Settles O8: the operand writes are the first moves, one step each; they touch ARG0 and ARG1 only, and the word that
comes next is the request's own. -/
theorem writtenRequestPlacesOperands : Obligations.WrittenRequestPlacesOperands := by
  intro s w rest hq
  rw [writtenMoves, List.append_assoc] at hq
  refine ⟨_, _, steps_operandMoves hq, decodeRequest_encode (writtenInstr_format w), rfl,
    by simp [State.sameUnit, operandsPlaced], ⟨rfl, rfl⟩, fun _ => rfl, ?_⟩
  cases w with
  | init cmd ctl =>
    obtain ⟨hcmd, hctl⟩ := initBases_of_placed cmd ctl
    exact ⟨rfl, hcmd, hctl, rfl⟩
  | seekRel => exact ⟨rfl, rfl, toInt_of_placed_delta⟩
  | seekEnd => exact ⟨rfl, rfl, toInt_of_placed_delta⟩
  | _ => exact ⟨rfl, rfl, rfl⟩

end Sys2Proof.Machine
end

section
/-! PROOFS. The port interface (R110, R111): the nine addresses without a wrap, the port transaction each point of a
running request makes, and the table of R62 held by every one of them. -/

namespace Sys2Proof.Machine

variable {s t : State}

/-! ### Port addresses -/

/-- A port's address does not reach `2^16`: an offset is at most 7, and that of `P_CTL` is 0 (R110). -/
theorem base_add_offset_lt (hbase : s.cmdBase.toNat ≤ 0xFFF8) (p : PortName) :
    (p.base s.cmdBase s.ctlBase).toNat + p.offset < 2 ^ 16 := by
  have hctl := s.ctlBase.isLt
  cases p <;> simp only [PortName.base, PortName.offset] <;> omega

/-- While `CMD_BASE <= 0xFFF8` a port's address is exact (R110; log entry 20). -/
theorem portAddr_toNat (hbase : s.cmdBase.toNat ≤ 0xFFF8) (p : PortName) :
    (s.portAddr p).toNat = (p.base s.cmdBase s.ctlBase).toNat + p.offset := by
  have hlt := base_add_offset_lt hbase p
  have hoff : (BitVec.ofNat 16 p.offset).toNat = p.offset := Nat.mod_eq_of_lt (by omega)
  unfold State.portAddr PortName.address
  rw [BitVec.toNat_add_of_lt (by rwa [hoff]), hoff]

/-- Settles O33: the bound on CMD_BASE of a legal state keeps every sum below `2^16`. -/
theorem portAddressesExact : Obligations.PortAddressesExact := by
  intro s h
  have hexact := portAddr_toNat h.base
  exact ⟨hexact .data, hexact .errFeat, hexact .secCnt, hexact .lba0, hexact .lba1, hexact .lba2, hexact .drvSel,
    hexact .statCmd, hexact .ctl⟩

/-! ### The values the unit writes to its ports -/

/-- Bits 7:4 of a drive-select byte are 1111 (R89). -/
theorem driveSelectByte_high (lba : Word64) : (driveSelectByte lba).extractLsb' 4 4 = 0xF#4 := by
  have hnibble : ∀ n : BitVec 4, (0xF0#8 ||| BitVec.setWidth 8 n).extractLsb' 4 4 = 0xF#4 := by decide
  exact hnibble _

/-- The byte of a count from 1 to 255 is not 0 (R90). -/
theorem sectorCountByte_ne_zero {n : Word16} (hpos : 0 < n.toNat) (hmax : n.toNat ≤ 255) : sectorCountByte n ≠ 0#8 := by
  intro hzero
  have hbyte : n.toNat % 256 = 0 := by simpa [sectorCountByte] using congrArg BitVec.toNat hzero
  omega

/-- A leg programs at most 255 sectors (R182, R204, R256). -/
theorem State.TransferOk.legCount_le (ht : s.TransferOk) (l : Leg) : (s.legCount l).toNat ≤ 255 := by
  cases l with
  | read => exact ht.sectorsMax
  | snapStart => exact Nat.one_le_ofNat
  | snapEnd => exact Nat.one_le_ofNat
  | write => exact ht.sectorsMax

/-! ### The transactions the table of R62 permits at a point -/

/-- The port transaction `x` is one that the unit may make in a step from `s`: what R111 and R62 say of it, with the point
of the request that `P_CTL` and each direction of `P_DATA` belong to. -/
structure State.Permits (s : State) (x : PortTx) : Prop where
  lawful : x.lawful = true
  addr : x.addr = s.portAddr x.port
  control : x.port = .ctl → s.seq = .run .initControl
  dataRead : (∃ a v, x = .in16 a v) → ∃ l, l ≠ .write ∧ s.seq = .run (.leg l .xfer)
  dataWrite : (∃ a v, x = .out16 a v) → s.seq = .run (.leg .write .xfer)

/-- `t` comes after `s` with one port transaction, a permitted one. -/
def State.onePermitted (s t : State) : Prop := ∃ x, s.oneTransaction x t ∧ s.Permits x

/-- A status read is permitted everywhere (R62). -/
theorem permits_statusRead (s : State) (v : Byte) : s.Permits (.in8 .statCmd (s.portAddr .statCmd) v) where
  lawful := rfl
  addr := rfl
  control := nofun
  dataRead := by rintro ⟨_, _, hx⟩; cases hx
  dataWrite := by rintro ⟨_, _, hx⟩; cases hx

/-- A lawful byte may be written to every port but `P_CTL`, and to `P_CTL` at INIT's control write (R62, R130). -/
theorem permits_byteWrite {p : PortName} {v : Byte} (hlawful : (PortTx.out8 p (s.portAddr p) v).lawful = true)
    (hctl : p = .ctl → s.seq = .run .initControl) : s.Permits (.out8 p (s.portAddr p) v) where
  lawful := hlawful
  addr := rfl
  control := hctl
  dataRead := by rintro ⟨_, _, hx⟩; cases hx
  dataWrite := by rintro ⟨_, _, hx⟩; cases hx

/-- A device command's byte may be written to `P_STATCMD` (R92, R62). -/
theorem permits_command {c : Instr} (hc : c.format = .devcmd8) (s : State) :
    s.Permits (.out8 .statCmd (s.portAddr .statCmd) (encode c)) := by
  refine permits_byteWrite ?_ nofun
  cases c with
  | readSectors => rfl
  | writeSectors => rfl
  | cacheFlush => rfl
  | _ => cases hc

theorem Leg.command_format (l : Leg) : l.command.format = .devcmd8 := by
  cases l <;> rfl

/-- A data read is permitted in READ's data phase and the snapshots' (R62, R201, R204). -/
theorem permits_dataRead {l : Leg} (hl : l ≠ .write) (hs : s.seq = .run (.leg l .xfer)) (v : Word16) :
    s.Permits (.in16 (s.portAddr .data) v) where
  lawful := rfl
  addr := rfl
  control := nofun
  dataRead := fun _ => ⟨l, hl, hs⟩
  dataWrite := by rintro ⟨_, _, hx⟩; cases hx

/-- A data write is permitted in WRITE's data phase (R62, R224). -/
theorem permits_dataWrite (hs : s.seq = .run (.leg .write .xfer)) (v : Word16) :
    s.Permits (.out16 (s.portAddr .data) v) where
  lawful := rfl
  addr := rfl
  control := nofun
  dataRead := by rintro ⟨_, _, hx⟩; cases hx
  dataWrite := fun _ => hs

/-! ### The transaction of each point -/

/-- A poll is one status read (R180, R181). -/
theorem poll_oneTransaction (done : Byte → Bool) (pt : Point) (s : State) :
    s.oneTransaction (.in8 .statCmd (s.portAddr .statCmd) (s.device.in8 .statCmd).1) (poll done pt s) := by
  unfold poll
  split <;> rfl

theorem poll_onePermitted (done : Byte → Bool) (pt : Point) (s : State) : s.onePermitted (poll done pt s) :=
  ⟨_, poll_oneTransaction done pt s, permits_statusRead s _⟩

/-- A lawful write of a command-block register is one permitted transaction (R182). -/
theorem programStep_onePermitted {p : PortName} {v : Byte} {pt : Point} (hctl : p ≠ .ctl)
    (hlawful : (PortTx.out8 p (s.portAddr p) v).lawful = true) : s.onePermitted (programStep p v pt s) :=
  ⟨_, rfl, permits_byteWrite hlawful fun hp => absurd hp hctl⟩

/-- INIT's status read is one transaction, whatever it answers (R130). -/
theorem initStatusStep_onePermitted (s : State) : s.onePermitted (initStatusStep s) := by
  refine ⟨.in8 .statCmd (s.portAddr .statCmd) (s.device.in8 .statCmd).1, ?_, permits_statusRead s _⟩
  unfold initStatusStep
  split <;> rfl

/-- INIT's control write puts 0 to `P_CTL` (R94, R130). -/
theorem initControlStep_onePermitted (hs : s.seq = .run .initControl) : s.onePermitted (initControlStep s) :=
  ⟨_, rfl, permits_byteWrite (p := .ctl) (v := deviceControlByte) rfl fun _ => hs⟩

/-- The loop update after a data word makes no transaction when the end of the phase makes none. -/
theorem nextWord_trace {l : Leg} {done : State → State} (hdone : (done s).trace = s.trace) :
    (nextWord l done s).trace = s.trace := by
  rcases nextWord_cases l done s with e | e | e <;> rw [e]
  exacts [rfl, rfl, hdone]

theorem nextSnapWord_trace {done : State → State} (hdone : (done s).trace = s.trace) :
    (nextSnapWord done s).trace = s.trace := by
  rcases nextSnapWord_cases done s with e | e <;> rw [e]
  exacts [rfl, hdone]

/-- A data word is one 16-bit transaction, in its leg's direction; a legal state's merge finds its word (R201, R204,
R224, R262). -/
theorem xferStep_onePermitted {l : Leg} (h : s.Inv) (hs : s.seq = .run (.leg l .xfer)) (ht : xferStep l s = .next t) :
    s.onePermitted t := by
  cases l with
  | read =>
    obtain ⟨m, -, rfl⟩ := readWordStep_next ht
    exact ⟨_, nextWord_trace (done := endOfRead) rfl, permits_dataRead (l := .read) nofun hs _⟩
  | snapStart =>
    cases ht
    exact ⟨_, nextSnapWord_trace (done := endOfStartSnap) rfl, permits_dataRead (l := .snapStart) nofun hs _⟩
  | snapEnd =>
    cases ht
    exact ⟨_, nextSnapWord_trace (done := endOfEndSnap) rfl, permits_dataRead (l := .snapEnd) nofun hs _⟩
  | write =>
    rcases writeWordStep_cases s with ⟨v, -, e⟩ | ⟨hm, -⟩ | ⟨-, e⟩
    · cases e.symm.trans ht
      exact ⟨_, nextWord_trace (done := goPoint .flBsy) rfl, permits_dataWrite hs v⟩
    · exact absurd hm (mergeWord_ne_unwritten_of_inv h hs)
    · cases e.symm.trans ht

/-- Every point of a command sequence makes one permitted transaction (R180 to R184). -/
theorem legStep_onePermitted {l : Leg} {p : Stage} (h : s.Inv) (hs : s.seq = .run (.leg l p))
    (ht : legStep l p s = .next t) : s.onePermitted t := by
  obtain ⟨-, -, -, ⟨-, hok, -, -⟩, -⟩ := running_facts h hs
  cases p with
  | bw => cases ht; exact poll_onePermitted _ _ s
  | sel => cases ht; exact programStep_onePermitted nofun (beq_iff_eq.mpr (driveSelectByte_high _))
  | cnt =>
    cases ht
    exact programStep_onePermitted nofun
      (bne_iff_ne.mpr (sectorCountByte_ne_zero (hok.legCount_pos l) (hok.legCount_le l)))
  | l0 => cases ht; exact programStep_onePermitted nofun rfl
  | l1 => cases ht; exact programStep_onePermitted nofun rfl
  | l2 => cases ht; exact programStep_onePermitted nofun rfl
  | cmd =>
    obtain ⟨l', -, rfl⟩ := issueTransfer_next ((exec_legCommand l s).symm.trans ht)
    exact ⟨_, rfl, permits_command l.command_format s⟩
  | wrBsy => cases ht; exact poll_onePermitted _ _ s
  | wrDrq => cases ht; exact poll_onePermitted _ _ s
  | xfer => exact xferStep_onePermitted h hs ht

/-- Every point of a running request makes one permitted transaction (R37, R40). -/
theorem pointStep_onePermitted {pt : Point} (h : s.Inv) (hs : s.seq = .run pt) (ht : pointStep pt s = .next t) :
    s.onePermitted t := by
  cases pt with
  | initStatus => cases ht; exact initStatusStep_onePermitted s
  | initControl => cases ht; exact initControlStep_onePermitted hs
  | leg l p => exact legStep_onePermitted h hs ht
  | flBsy => cases ht; exact poll_onePermitted _ _ s
  | flCmd =>
    obtain ⟨-, rfl⟩ := execCacheFlush_next ht
    exact ⟨_, rfl, permits_command (c := .cacheFlush) rfl s⟩

/-! ### The steps without a transaction -/

/-- No request makes a port transaction in its acceptance step (R40). -/
theorem requestBody_noTransaction (i : Instr) (s : State) : s.noTransaction (Instr.requestBody i s) := by
  cases i with
  | seekRel =>
    show s.noTransaction (seekRelBody s)
    unfold seekRelBody
    split <;> exact ⟨rfl, rfl⟩
  | read =>
    show s.noTransaction (readBody s)
    unfold readBody
    split <;> exact ⟨rfl, rfl⟩
  | write =>
    show s.noTransaction (writeBody s)
    unfold writeBody
    split <;> exact ⟨rfl, rfl⟩
  | _ => exact ⟨rfl, rfl⟩

/-- A written request word makes no port transaction (R39, R40, R83). -/
theorem writeReq_noTransaction {q : Byte} (ht : writeReq q s = .next t) : s.noTransaction t := by
  rcases writeReq_next ht with ⟨i, hq, he⟩ | rfl
  · rw [exec_request (encode_of_decodeRequest hq).2] at he
    cases he
    rcases request_cases i (Instr.requestBody i) s with ⟨-, e⟩ | ⟨-, -, e⟩ | ⟨-, -, c, -, e⟩ | ⟨-, -, -, e⟩ <;> rw [e]
    · exact ⟨rfl, rfl⟩
    · exact ⟨rfl, rfl⟩
    · exact ⟨rfl, rfl⟩
    · exact requestBody_noTransaction i (accepted i s)
  · rcases illegalWord_cases s with e | ⟨c, e⟩ <;> rw [e] <;> exact ⟨rfl, rfl⟩

/-- A step is the unit's own or makes no port transaction (R40; log entry 1). -/
theorem step_unit_or_noTransaction (ht : step s = .next t) :
    (∃ moves, unitStep (setQueue moves s) = .next t) ∨ s.noTransaction t := by
  rcases step_cases ht with ⟨-, hu⟩ | ⟨rest, -, hu⟩ | ⟨-, -, -, hu⟩ | ⟨rest, -, -, rfl⟩ | ⟨q, rest, -, hw⟩ |
    ⟨v, rest, -, rfl⟩ | ⟨v, rest, -, rfl⟩ | ⟨r, rest, -, rfl⟩ | ⟨a, v, rest, -, -, rfl⟩ | ⟨a, rest, -, -, rfl⟩ |
    ⟨rest, -, rfl⟩
  · exact .inl ⟨s.callerQueue, hu⟩
  · exact .inl ⟨rest, hu⟩
  · exact .inl ⟨s.callerQueue, hu⟩
  · exact .inr ⟨rfl, rfl⟩
  · exact .inr (writeReq_noTransaction (s := setQueue rest s) hw)
  · exact .inr ⟨rfl, rfl⟩
  · exact .inr ⟨rfl, rfl⟩
  · exact .inr ⟨rfl, rfl⟩
  · exact .inr ⟨rfl, rfl⟩
  · exact .inr ⟨rfl, rfl⟩
  · exact .inr ⟨rfl, rfl⟩

/-- The unit's own step makes one permitted transaction while a request is running, and none otherwise (R40, R281). -/
theorem unitStep_trace (h : s.Inv) (ht : unitStep s = .next t) :
    t.trace = s.trace ∨ s.busy = true ∧ s.onePermitted t := by
  rcases unitStep_next ht with ⟨pt, hs, hp⟩ | rfl
  · exact .inr ⟨(running_facts h hs).1, pointStep_onePermitted h hs hp⟩
  · exact .inl rfl

/-- Settles O34: only the unit's own step makes a transaction, and each point of a running request makes one that the
table of R62 permits there. -/
theorem onlyLawfulTransactions : Obligations.OnlyLawfulTransactions := by
  intro s t h ht
  rcases step_unit_or_noTransaction ht with ⟨moves, hu⟩ | hnone
  · refine (unitStep_trace (inv_setQueue h moves) hu).imp_right ?_
    rintro ⟨hbusy, x, hone, hx⟩
    exact ⟨x, hone, hbusy, hx.lawful, hx.addr, hx.control, hx.dataRead, hx.dataWrite⟩
  · exact .inl hnone.1

end Sys2Proof.Machine
end

section
/-! PROOFS. INIT (R130): its acceptance from a state without a handle, and the status read that finds no device (R95). -/

namespace Sys2Proof.Machine

variable {s : State}

/-! ### Acceptance -/

/-- A unit without a handle is neither faulted nor busy, and its FAULT is 0 (R35, R281). -/
theorem State.Fresh.accepts (h : s.Fresh) :
    s.seq ≠ .faulted ∧ s.busy = false ∧ s.inited = false ∧ s.faultFlag = false := by
  obtain ⟨hseq, hstatus⟩ := h
  have hbusy := hstatus.busy
  have hinit := hstatus.init
  have hfault := hstatus.fault
  rw [hseq] at hbusy hinit hfault
  exact ⟨by simp [hseq], hbusy, hinit, hfault⟩

/-- Taking a move off the queue creates no handle. -/
theorem State.Fresh.setQueue (h : s.Fresh) (q : List CallerMove) : (setQueue q s).Fresh where
  seq := h.seq
  status := ⟨h.status.reserved, h.status.busy, h.status.fault, h.status.init, h.status.err⟩

/-- Without a handle a lawful command base passes checks 4 and 6 of R256. -/
theorem initFault_eq_none (hinit : s.inited = false) (hbase : (initCmdBase s.arg0).toNat ≤ 0xFFF8) :
    initFault s = none := by
  rw [initFault, if_neg (Bool.eq_false_iff.mp hinit), if_neg (by simp only [Config.maxCmdBase]; omega)]

/-- INIT of a lawful command base is accepted where there is no handle (R39, R130). -/
theorem execInit_of_fresh (h : s.Fresh) (hbase : (initCmdBase s.arg0).toNat ≤ 0xFFF8) :
    exec .init s = .next (beginInit (accepted .init s)) := by
  obtain ⟨hseq, hbusy, hinit, -⟩ := h.accepts
  exact congrArg _ (request_accepted .init beginInit hseq hbusy (initFault_eq_none hinit hbase))

/-- Settles O13: acceptance sets BUSY and REQ, `beginInit` the bases and SEQ, and nothing else changes. -/
theorem initAccepted : Obligations.InitAccepted := by
  intro s h hbase
  obtain ⟨-, -, hinit, hfault⟩ := h.accepts
  have hustat : (beginInit (accepted .init s)).ustat = ustatOf true false false s.err := by
    show ustatOf true s.inited s.faultFlag s.err = _
    rw [hinit, hfault]
  exact ⟨_, execInit_of_fresh h hbase, rfl, rfl, rfl, hustat, rfl, rfl, ⟨rfl, rfl⟩, ⟨rfl, rfl, rfl, rfl, rfl, rfl, rfl⟩,
    ⟨rfl, rfl⟩, ⟨rfl, rfl, rfl, rfl, rfl⟩, ⟨rfl, rfl⟩, fun _ => rfl, ⟨rfl, rfl⟩⟩

/-! ### The absent device -/

/-- The step that takes an accepted INIT word off the queue (R39, R130). -/
theorem step_of_initWord {rest : List CallerMove} (h : s.Fresh) (hq : s.callerQueue = .writeReq 0x01#8 :: rest)
    (hbase : (initCmdBase s.arg0).toNat ≤ 0xFFF8) :
    step s = .next (beginInit (accepted .init (setQueue rest s))) :=
  calc step s
      = writeReq 0x01#8 (setQueue rest s) := step_of_callerQueue_cons hq
    _ = exec .init (setQueue rest s) := writeReq_of_decode (decodeRequest_encode (i := .init) rfl) _
    _ = .next (beginInit (accepted .init (setQueue rest s))) := execInit_of_fresh (h.setQueue rest) hbase

/-- The sentinel in INIT's status read raises DEVICE_ABSENT after the read (R95, R130). -/
theorem initStatusStep_of_absent (habsent : (s.device.in8 .statCmd).1 = 0xFF#8) :
    initStatusStep s = raiseFault .deviceAbsent (portIn8 .statCmd s).2 :=
  if_pos (beq_iff_eq.mpr habsent)

/-- With no move to come, the step at INIT's status read is that read and its fault (R40, R95). -/
theorem step_initStatus_of_absent (hq : s.callerQueue = []) (hs : s.seq = .run .initStatus)
    (habsent : (s.device.in8 .statCmd).1 = 0xFF#8) :
    step s = .next (raiseFault .deviceAbsent (portIn8 .statCmd s).2) :=
  (step_at hq hs).trans (congrArg _ (initStatusStep_of_absent habsent))

/-- USTAT after DEVICE_ABSENT without a handle: FAULT and the code (R24, R88, R255). -/
theorem raiseFault_deviceAbsent_ustat (hinit : s.inited = false) : (raiseFault .deviceAbsent s).ustat = 0x8004#16 := by
  rw [raiseFault_ustat, hinit]
  rfl

/-- Settles O15: the first step is the acceptance, the second the status read, which raises the fault over the accepted
state (R260). -/
theorem initFindsNoDevice : Obligations.InitFindsNoDevice := by
  intro s h hq hbase habsent
  obtain ⟨-, -, hnohandle, -⟩ := h.accepts
  have haccept := step_of_initWord h hq hbase
  have hread := step_initStatus_of_absent (s := beginInit (accepted .init (setQueue [] s))) rfl rfl habsent
  have hinit : (accepted .init (setQueue [] s)).inited = false := (accepted_inited _ _).trans hnohandle
  refine ⟨_, steps_trans (steps_one haccept) (steps_one hread), rfl, raiseFault_deviceAbsent_ustat hinit, rfl, rfl, rfl,
    rfl, ?trace, ⟨rfl, rfl⟩, ⟨rfl, rfl, rfl, rfl, rfl, rfl, rfl⟩, ⟨rfl, rfl, rfl, rfl, rfl⟩, fun _ => rfl⟩
  case trace => exact congrArg (PortTx.in8 .statCmd (s.arg0.extractLsb' 0 16 + 7#16) · :: s.trace) habsent

end Sys2Proof.Machine
end

section
/-! PROOFS. The seeks (R140 to R143): what a written request other than INIT does with and without a handle, how one that
completes in its acceptance step leaves the state, and SEEK.REL by its exact candidate. -/

namespace Sys2Proof.Machine

variable {s : State}

/-! ### Acceptance of a request -/

/-- A failed check of R256 raises its fault. -/
theorem request_refused (i : Instr) (body : State → State) {c : FatalCode} (hf : s.seq ≠ .faulted)
    (hb : s.busy = false) (ha : acceptFault i s = some c) : request i body s = raiseFault c s := by
  rw [request, gated_of_not_busy hf hb, ha]

/-- A request that fails a check changes USTAT and SEQ only (R256, R260). -/
theorem exec_faultedWith {i : Instr} {c : FatalCode} (hi : i.format = .req8) (hf : s.seq ≠ .faulted)
    (hb : s.busy = false) (ha : acceptFault i s = some c) : ∃ t, exec i s = .next t ∧ s.faultedWith c t :=
  ⟨_, (exec_request hi s).trans (congrArg _ (request_refused i _ hf hb ha)), raiseFault_faultedWith c s⟩

/-- Without a handle every request but INIT fails check 5 of R256, whatever its operands. -/
theorem acceptFault_of_no_handle {i : Instr} (hi : i.format = .req8) (hne : i ≠ .init) (hinit : s.inited = false) :
    acceptFault i s = some .notInitialised := by
  have hhandle : handleFault s = some .notInitialised := if_neg (Bool.eq_false_iff.mp hinit)
  cases i with
  | init => exact absurd rfl hne
  | seekAbs => exact hhandle
  | seekRel => rw [acceptFault, hhandle, Option.some_or]
  | seekEnd => exact hhandle
  | read => rw [acceptFault, hhandle, Option.some_or]
  | write => rw [acceptFault, hhandle, Option.some_or]
  | flush => exact hhandle
  | rsc => exact hhandle
  | readSectors => cases hi
  | writeSectors => cases hi
  | cacheFlush => cases hi

/-- Without a handle every request but INIT raises NOT_INITIALISED (R256). -/
theorem State.Fresh.exec_notInitialised (h : s.Fresh) {i : Instr} (hi : i.format = .req8) (hne : i ≠ .init) :
    ∃ t, exec i s = .next t ∧ s.faultedWith .notInitialised t := by
  obtain ⟨hseq, hbusy, hinit, -⟩ := h.accepts
  exact exec_faultedWith hi hseq hbusy (acceptFault_of_no_handle hi hne hinit)

/-- With a handle check 5 of R256 passes. -/
theorem State.Ready.handleFault_eq_none (h : s.Ready) : handleFault s = none :=
  if_pos h.accepts.2.2

/-- With a handle and no request, a request that passes its checks runs its body (R39). -/
theorem State.Ready.exec_accepted (h : s.Ready) {i : Instr} (hi : i.format = .req8) (ha : acceptFault i s = none) :
    exec i s = .next (Instr.requestBody i (accepted i s)) :=
  (exec_request hi s).trans (congrArg _ (request_accepted i _ h.accepts.1 h.accepts.2.1 ha))

/-! ### Completion in the acceptance step -/

/-- POS, USTAT, REQ, RESULT and SEQ are what `State.quiet` leaves open. -/
theorem quiet_update (s : State) (p : Word64) (u : Word16) (q : Byte) (r : Word64) (n : Seq) :
    s.quiet { s with pos := p, ustat := u, req := q, result := r, seq := n } :=
  ⟨⟨rfl, rfl⟩, ⟨rfl, rfl⟩, ⟨rfl, rfl, rfl, rfl, rfl, rfl, rfl⟩, ⟨rfl, rfl⟩, ⟨rfl, rfl, rfl, rfl, rfl⟩, ⟨rfl, rfl⟩,
    fun _ => rfl, ⟨rfl, rfl⟩⟩

/-- USTAT of a ready unit that completes a request: INIT set, FAULT clear (R24, R257). -/
theorem State.Ready.ustat_of_completion (h : s.Ready) (i : Instr) (code : Byte) :
    ustatOf false (accepted i s).inited (accepted i s).faultFlag code = ustatOf false true false code := by
  have hfault := h.status.fault
  rw [h.seq] at hfault
  rw [accepted_inited, accepted_faultFlag, h.accepts.2.2, hfault]
  rfl

/-- A request of a ready unit that moves the cursor completes with OK and the new position (R140, R141, R257). -/
theorem State.Ready.moveCursor_completedWith (h : s.Ready) (i : Instr) (p : Word64) :
    (moveCursor p (accepted i s)).completedWith p p :=
  ⟨h.ustat_of_completion i 0x00#8, rfl, rfl, rfl⟩

/-! ### SEEK.ABS and SEEK.END -/

/-- Settles O16: SEEK.ABS has no check beyond the handle, and moving the cursor changes POS, RESULT, USTAT and SEQ. -/
theorem seekAbsMovesCursor : Obligations.SeekAbsMovesCursor := by
  refine fun s => ⟨fun hready => ?_, fun hfresh => hfresh.exec_notInitialised rfl nofun⟩
  exact ⟨_, hready.exec_accepted rfl hready.handleFault_eq_none, hready.moveCursor_completedWith .seekAbs s.arg0,
    quiet_update s ..⟩

/-- Settles O18: SEEK.END reads no operand, and its error result leaves POS and RESULT. -/
theorem seekEndAlwaysFails : Obligations.SeekEndAlwaysFails := by
  refine fun s => ⟨fun hready => ?_, fun hfresh => hfresh.exec_notInitialised rfl nofun⟩
  exact ⟨_, hready.exec_accepted rfl hready.handleFault_eq_none, hready.ustat_of_completion .seekEnd 0x02#8, rfl, rfl,
    rfl, quiet_update s ..⟩

/-! ### SEEK.REL by its candidate -/

/-- SEEK.REL of a ready unit is checked by its candidate only (R141, R256). -/
theorem State.Ready.acceptFault_seekRel (h : s.Ready) : acceptFault .seekRel s = seekFault s := by
  rw [acceptFault, h.handleFault_eq_none, Option.none_or]

/-- A candidate of at most `2^64 - 1` passes the check of R141. -/
theorem seekFault_eq_none (h : (s.pos.toNat : Int) + s.arg0.toInt ≤ 2 ^ 64 - 1) : seekFault s = none :=
  if_neg (by simp only [seekCandidate, Config.posLimit]; omega)

/-- A candidate above `2^64 - 1` fails it. -/
theorem seekFault_eq_positionOverflow (h : 2 ^ 64 - 1 < (s.pos.toNat : Int) + s.arg0.toInt) :
    seekFault s = some .positionOverflow :=
  if_pos (by simp only [seekCandidate, Config.posLimit]; omega)

/-- SEEK.REL of a ready unit whose candidate is not above `2^64 - 1` is accepted (R39, R141). -/
theorem State.Ready.execSeekRel_accepted (h : s.Ready) (hle : (s.pos.toNat : Int) + s.arg0.toInt ≤ 2 ^ 64 - 1) :
    exec .seekRel s = .next (seekRelBody (accepted .seekRel s)) :=
  h.exec_accepted rfl (h.acceptFault_seekRel.trans (seekFault_eq_none hle))

/-- A negative candidate completes SEEK.REL with the error result (R141). -/
theorem seekRelBody_of_neg (h : seekCandidate s.pos s.arg0 < 0) : seekRelBody s = completeErr .seekOutOfRange s :=
  if_pos h

/-- Any other candidate moves the cursor to it (R141). -/
theorem seekRelBody_of_nonneg (h : 0 ≤ seekCandidate s.pos s.arg0) :
    seekRelBody s = moveCursor (BitVec.ofInt 64 (seekCandidate s.pos s.arg0)) s :=
  if_neg (by omega)

/-- A candidate in the range of POS is written to it exactly (R141, R23). -/
theorem toNat_ofInt_of_range {c : Int} (h0 : 0 ≤ c) (hle : c ≤ 2 ^ 64 - 1) : ((BitVec.ofInt 64 c).toNat : Int) = c := by
  rw [BitVec.toNat_ofInt]
  omega

/-- A candidate in the range of POS moves the cursor and is the result (R141). -/
theorem State.Ready.seekRel_moves (h : s.Ready) (h0 : 0 ≤ (s.pos.toNat : Int) + s.arg0.toInt)
    (hle : (s.pos.toNat : Int) + s.arg0.toInt ≤ 2 ^ 64 - 1) :
    ∃ t p, exec .seekRel s = .next t ∧ (p.toNat : Int) = (s.pos.toNat : Int) + s.arg0.toInt ∧ t.completedWith p p ∧
      s.quiet t := by
  have hbody := seekRelBody_of_nonneg (s := accepted .seekRel s) h0
  exact ⟨_, _, (h.execSeekRel_accepted hle).trans (congrArg _ hbody), toNat_ofInt_of_range h0 hle,
    h.moveCursor_completedWith .seekRel _, quiet_update s ..⟩

/-- A negative candidate leaves POS and RESULT (R141, R143). -/
theorem State.Ready.seekRel_outOfRange (h : s.Ready) (hneg : (s.pos.toNat : Int) + s.arg0.toInt < 0) :
    ∃ t, exec .seekRel s = .next t ∧ t.ustat = ustatOf false true false 0x01#8 ∧ t.seq = .idle ∧ t.pos = s.pos ∧
      t.result = s.result ∧ s.quiet t := by
  have hbody := seekRelBody_of_neg (s := accepted .seekRel s) hneg
  exact ⟨_, (h.execSeekRel_accepted (by omega)).trans (congrArg _ hbody), h.ustat_of_completion .seekRel 0x01#8, rfl,
    rfl, rfl, quiet_update s ..⟩

/-- A candidate above `2^64 - 1` raises POSITION_OVERFLOW at acceptance (R141, R260). -/
theorem State.Ready.seekRel_overflows (h : s.Ready) (hover : 2 ^ 64 - 1 < (s.pos.toNat : Int) + s.arg0.toInt) :
    ∃ t, exec .seekRel s = .next t ∧ s.faultedWith .positionOverflow t := by
  obtain ⟨hseq, hbusy, -⟩ := h.accepts
  exact exec_faultedWith rfl hseq hbusy (h.acceptFault_seekRel.trans (seekFault_eq_positionOverflow hover))

/-- Settles O17: the candidate, an unbounded integer, decides between the move, the error result and the fault. -/
theorem seekRelMovesOrFails : Obligations.SeekRelMovesOrFails := fun _ =>
  ⟨fun hready => ⟨hready.seekRel_moves, hready.seekRel_outOfRange, hready.seekRel_overflows⟩,
    fun hfresh => hfresh.exec_notInitialised rfl nofun⟩

end Sys2Proof.Machine
end

section
/-! PROOFS. Alignment (R160 to R168): the required sector count and RSC, the ranges of the word classes, where each class
occurs, and the buffer bytes the words of a transfer move. -/

namespace Sys2Proof.Machine

/-! ### The required sector count -/

/-- The branches of R162 in one formula: a transfer's bytes, its offset in front of them, in whole sectors (R163). -/
theorem requiredSectors_eq_div {l : Nat} (p : Nat) (hl : 0 < l) : requiredSectors p l = (p % 512 + l + 511) / 512 := by
  unfold requiredSectors
  dsimp only
  split_ifs <;> omega

/-- A sector is one of the transfer's exactly when it begins before the transfer's end (R163). -/
theorem lt_requiredSectors_iff {p l sec : Nat} (hl : 0 < l) : sec < requiredSectors p l ↔ 512 * sec < p % 512 + l := by
  rw [requiredSectors_eq_div p hl]
  omega

/-- Settles O21: each form is the quotient of R163, with the cursor's sector taken off. -/
theorem sectorCountClosedForms : Obligations.SectorCountClosedForms := by
  refine fun p l => ⟨rfl, fun hl => ⟨requiredSectors_eq_div p hl, ?sectors, fun n => ?least⟩⟩
  case sectors =>
    rw [requiredSectors_eq_div p hl]
    omega
  case least =>
    rw [← not_lt, ← not_lt, lt_requiredSectors_iff hl]
    omega

/-! ### RSC -/

/-- The required sector count of operands in their registers fits RESULT (R162, R164). -/
theorem requiredSectors_lt_two_pow_64 (p l : Word64) : requiredSectors p.toNat l.toNat < 2 ^ 64 := by
  have hl := l.isLt
  rcases Nat.eq_zero_or_pos l.toNat with hzero | hpos
  · rw [hzero]
    exact Nat.two_pow_pos 64
  · rw [requiredSectors_eq_div _ hpos]
    omega

/-- Settles O20: RSC has no check beyond the handle, and its count is below `2^64`, so RESULT holds it whole. -/
theorem rscReturnsCount : Obligations.RscReturnsCount := by
  refine fun s => ⟨fun hready => ?_, fun hfresh => hfresh.exec_notInitialised rfl nofun⟩
  have hcount := Nat.mod_eq_of_lt (requiredSectors_lt_two_pow_64 s.pos s.arg0)
  exact ⟨_, _, hready.exec_accepted rfl hready.handleFault_eq_none, (BitVec.toNat_ofNat ..).trans hcount,
    ⟨hready.ustat_of_completion .rsc 0x00#8, rfl, rfl, rfl⟩, quiet_update s ..⟩

/-! ### The ranges of the word classes -/

/-- The range of `idx` a class stands for (R166), independent of the order of R166's tests. -/
def WordClass.InRange (idx : Int) (l : Nat) : WordClass → Prop
  | .straddleLow => idx = -1
  | .before => idx < -1
  | .inside => 0 ≤ idx ∧ idx + 1 < l
  | .straddleHigh => 0 ≤ idx ∧ idx < l ∧ l ≤ idx + 1
  | .after => 0 ≤ idx ∧ l ≤ idx

/-- A word lies in the range of its class. -/
theorem wordClass_inRange (idx : Int) (l : Nat) : (wordClass idx l).InRange idx l := by
  unfold wordClass
  split_ifs <;> simp only [WordClass.InRange] <;> omega

/-- A word has every class whose range it lies in, so the ranges exclude each other: each range fails R166's tests in
front of its own. -/
theorem wordClass_of_inRange {idx : Int} {l : Nat} {c : WordClass} (h : c.InRange idx l) : wordClass idx l = c := by
  cases c with
  | straddleLow => exact if_pos h
  | before =>
    have hidx : idx < -1 := h
    rw [wordClass, if_neg (by omega), if_pos hidx]
  | inside =>
    obtain ⟨hlow, hhigh⟩ := h
    rw [wordClass, if_neg (by omega), if_neg (by omega), if_pos hhigh]
  | straddleHigh =>
    obtain ⟨hlow, hlast, hhigh⟩ := h
    rw [wordClass, if_neg (by omega), if_neg (by omega), if_neg (by omega), if_pos hlast]
  | after =>
    obtain ⟨hlow, hhigh⟩ := h
    rw [wordClass, if_neg (by omega), if_neg (by omega), if_neg (by omega), if_neg (by omega)]

/-- A class is exactly its range. -/
theorem wordClass_eq_iff {idx : Int} {l : Nat} {c : WordClass} : wordClass idx l = c ↔ c.InRange idx l :=
  ⟨fun h => h ▸ wordClass_inRange idx l, wordClass_of_inRange⟩

/-- Settles O35: the index by its definition, each class by its range. -/
theorem wordClassTable : Obligations.WordClassTable := by
  refine ⟨fun s => ?index, fun idx l => ⟨wordClass_eq_iff, wordClass_eq_iff, wordClass_eq_iff, wordClass_eq_iff,
    wordClass_eq_iff⟩⟩
  case index =>
    unfold State.wordIdx wordIndex
    push_cast
    rfl

/-! ### Where each class occurs -/

section Occurrence

variable {p l sec w : Nat}

/-- STRADDLE_LOW is the one word across an odd cursor, in sector 0 (R167). -/
theorem straddleLow_iff (hw : w < 256) : wordClass (wordIndex sec w (p % 512)) l = .straddleLow ↔
    p % 2 = 1 ∧ sec = 0 ∧ w = (p % 512 - 1) / 2 := by
  simp only [wordClass_eq_iff, WordClass.InRange, wordIndex]
  omega

/-- BEFORE are the words of sector 0 in front of the cursor's (R167). -/
theorem before_iff (hw : w < 256) : wordClass (wordIndex sec w (p % 512)) l = .before ↔
    sec = 0 ∧ w < p % 512 / 2 := by
  simp only [wordClass_eq_iff, WordClass.InRange, wordIndex]
  omega

/-- STRADDLE_HIGH is the one word across an odd end (R167). -/
theorem straddleHigh_iff (hl : 0 < l) : wordClass (wordIndex sec w (p % 512)) l = .straddleHigh ↔
    (p + l) % 2 = 1 ∧ 256 * sec + w = (p % 512 + l - 1) / 2 := by
  simp only [wordClass_eq_iff, WordClass.InRange, wordIndex]
  omega

/-- A word that ends past the buffer is in the last sector, in front of an unaligned end (R167). -/
theorem last_sector_of_straddleHigh_or_after (hl : 0 < l) (hsec : sec < requiredSectors p l) (hw : w < 256)
    (hc : wordClass (wordIndex sec w (p % 512)) l = .straddleHigh ∨ wordClass (wordIndex sec w (p % 512)) l = .after) :
    sec = requiredSectors p l - 1 ∧ (p + l) % 512 ≠ 0 := by
  have hend := le_idx_succ_of_wordClass hc
  rw [requiredSectors_eq_div p hl] at hsec ⊢
  unfold wordIndex at hend
  omega

/-- The index of the `k`th word of the data phase, counted over the sectors (R166). -/
theorem wordIndex_div_mod (k off : Nat) : wordIndex (k / 256) (k % 256) off = 2 * k - off := by
  unfold wordIndex
  omega

/-- INSIDE words exist from three bytes on, or two at an even cursor (R167): the first is the word of the first even byte
position from the cursor on. -/
theorem exists_inside_iff : (∃ sec w, sec < requiredSectors p l ∧ w < 256 ∧
    wordClass (wordIndex sec w (p % 512)) l = .inside) ↔ 3 ≤ l ∨ (l = 2 ∧ p % 2 = 0) := by
  constructor
  · rintro ⟨sec, w, -, -, hc⟩
    have hidx := idx_of_wordClass_inside hc
    unfold wordIndex at hidx
    omega
  · intro hlen
    have hl : 0 < l := by omega
    refine ⟨(p % 512 + 1) / 2 / 256, (p % 512 + 1) / 2 % 256, (lt_requiredSectors_iff hl).2 (by omega),
      Nat.mod_lt _ (by decide), ?_⟩
    simp only [wordIndex_div_mod, wordClass_eq_iff, WordClass.InRange]
    omega

/-- The first word of a transfer's sector is not AFTER: the sector begins before the transfer's end (R163, R167). -/
theorem first_word_ne_after (hl : 0 < l) (hsec : sec < requiredSectors p l) :
    wordClass (wordIndex sec 0 (p % 512)) l ≠ .after := by
  rw [lt_requiredSectors_iff hl] at hsec
  simp only [ne_eq, wordClass_eq_iff, WordClass.InRange, wordIndex]
  omega

/-- The last word of a sector is not BEFORE: a sector's last byte is not in front of the cursor (R167). -/
theorem last_word_ne_before : wordClass (wordIndex sec 255 (p % 512)) l ≠ .before := by
  simp only [ne_eq, wordClass_eq_iff, WordClass.InRange, wordIndex]
  omega

/-- The sector of an unaligned end is the transfer's last (R167). -/
theorem end_sector_eq_last (hl : 0 < l) (hend : (p + l) % 512 ≠ 0) :
    (p + l) / 512 = p / 512 + requiredSectors p l - 1 := by
  rw [requiredSectors_eq_div p hl]
  omega

end Occurrence

/-- Settles O36: each class by its range of `idx`, a sector of the transfer by where it begins. -/
theorem wordClassesAtTheEnds : Obligations.WordClassesAtTheEnds := fun _ _ hl =>
  ⟨fun _ _ hsec hw => ⟨straddleLow_iff hw, before_iff hw, straddleHigh_iff hl,
      last_sector_of_straddleHigh_or_after hl hsec hw⟩,
    exists_inside_iff,
    fun _ hsec => ⟨⟨0, by decide, first_word_ne_after hl hsec⟩, ⟨255, by decide, last_word_ne_before⟩⟩,
    end_sector_eq_last hl⟩

/-! ### The buffer bytes of a transfer -/

/-! The list of each class (R168). -/

theorem movedIndices_of_straddleLow {idx : Int} {l : Nat} (h : wordClass idx l = .straddleLow) :
    movedIndices idx l = [0] := by rw [movedIndices, h]

theorem movedIndices_of_before {idx : Int} {l : Nat} (h : wordClass idx l = .before) : movedIndices idx l = [] := by
  rw [movedIndices, h]

theorem movedIndices_of_inside {idx : Int} {l : Nat} (h : wordClass idx l = .inside) :
    movedIndices idx l = [idx.toNat, idx.toNat + 1] := by rw [movedIndices, h]

theorem movedIndices_of_straddleHigh {idx : Int} {l : Nat} (h : wordClass idx l = .straddleHigh) :
    movedIndices idx l = [idx.toNat] := by rw [movedIndices, h]

theorem movedIndices_of_after {idx : Int} {l : Nat} (h : wordClass idx l = .after) : movedIndices idx l = [] := by
  rw [movedIndices, h]

/-- How many buffer bytes lie in the first `k` words of a transfer of `l` bytes at offset `off`. -/
def bytesBefore (off l k : Nat) : Nat := min l (2 * k - off)

/-- A word appends its bytes to those of the words in front of it, by its class (R168). -/
theorem range_bytesBefore_succ {l : Nat} (off k : Nat) (hl : 0 < l) :
    List.range (bytesBefore off l (k + 1)) = List.range (bytesBefore off l k) ++ movedIndices (2 * k - off) l := by
  unfold bytesBefore
  cases hc : wordClass (2 * k - off) l with
  | straddleLow =>
    have hidx : (2 * k - off : Int) = -1 := wordClass_eq_iff.1 hc
    rw [movedIndices_of_straddleLow hc, show min l (2 * k - off) = 0 by omega,
      show min l (2 * (k + 1) - off) = 1 by omega]
    rfl
  | before =>
    have hidx : (2 * k - off : Int) < -1 := wordClass_eq_iff.1 hc
    rw [movedIndices_of_before hc, show min l (2 * (k + 1) - off) = min l (2 * k - off) by omega, List.append_nil]
  | inside =>
    obtain ⟨hlow, hhigh⟩ := wordClass_eq_iff.1 hc
    rw [movedIndices_of_inside hc, show ((2 * k - off : Int)).toNat = min l (2 * k - off) by omega,
      show min l (2 * (k + 1) - off) = min l (2 * k - off) + 1 + 1 by omega, List.range_succ, List.range_succ,
      List.append_assoc]
    rfl
  | straddleHigh =>
    obtain ⟨hlow, hlast, hhigh⟩ := wordClass_eq_iff.1 hc
    rw [movedIndices_of_straddleHigh hc, show ((2 * k - off : Int)).toNat = min l (2 * k - off) by omega,
      show min l (2 * (k + 1) - off) = min l (2 * k - off) + 1 by omega, List.range_succ]
  | after =>
    obtain ⟨hlow, hhigh⟩ := wordClass_eq_iff.1 hc
    rw [movedIndices_of_after hc, show min l (2 * (k + 1) - off) = min l (2 * k - off) by omega, List.append_nil]

/-- The first `n` words of a transfer move its first bytes, each once and in order (R168). -/
theorem flatMap_movedIndices {l : Nat} (off n : Nat) (hl : 0 < l) :
    (List.range n).flatMap (fun k => movedIndices (wordIndex (k / 256) (k % 256) off) l) =
      List.range (bytesBefore off l n) := by
  induction n with
  | zero => simp [bytesBefore]
  | succ n ih =>
    rw [List.range_succ, List.flatMap_append, ih, List.flatMap_singleton, wordIndex_div_mod,
      range_bytesBefore_succ off n hl]

/-- The words of a transfer's sectors hold all its bytes (R163). -/
theorem bytesBefore_requiredSectors {l : Nat} (p : Nat) (hl : 0 < l) :
    bytesBefore (p % 512) l (256 * requiredSectors p l) = l := by
  rw [bytesBefore, requiredSectors_eq_div p hl]
  omega

/-- Settles O37: the words of the transfer are the first `256 * RSC` words, which move all `l` bytes; a transfer of no
bytes has no word. -/
theorem everyByteMovedOnce : Obligations.EveryByteMovedOnce := by
  refine ⟨fun idx l => ?count, fun p l => ?order⟩
  case count =>
    cases hc : wordClass idx l with
    | straddleLow => exact congrArg List.length (movedIndices_of_straddleLow hc)
    | before => exact congrArg List.length (movedIndices_of_before hc)
    | inside => exact congrArg List.length (movedIndices_of_inside hc)
    | straddleHigh => exact congrArg List.length (movedIndices_of_straddleHigh hc)
    | after => exact congrArg List.length (movedIndices_of_after hc)
  case order =>
    rcases Nat.eq_zero_or_pos l with rfl | hl
    · rfl
    · rw [flatMap_movedIndices _ _ hl, bytesBefore_requiredSectors p hl]

end Sys2Proof.Machine
end

section
/-! PROOFS. Command issuance (R180 to R188): FLUSH, the device commands where they are due and where they are not, the
polls, and the register programming before a command. -/

namespace Sys2Proof.Machine

variable {s t : State}

/-! ### The commands due -/

/-- Settles O6: whichever way the unit comes to move, its step at a command point is the command due there; the queue
has no part in what is due. -/
theorem stepRunsDueCommand : Obligations.StepRunsDueCommand := by
  refine fun s i hdue => ⟨fun hq => ?own, fun rest hq => ?yield, fun rest hq hb => ?poll⟩
  case own => exact ((callerOrUnitMoves s).1 hq).trans (unitStep_of_dueCommand hdue)
  case yield =>
    have hrest : dueCommand (setQueue rest s).seq = some i := hdue
    exact (step_of_callerQueue_cons hq).trans (unitStep_of_dueCommand hrest)
  case poll =>
    have hrest : (setQueue rest s).busy = true := (setQueue_busy rest s).trans hb
    exact (step_of_callerQueue_cons hq).trans ((awaitDone_of_busy hrest).trans (unitStep_of_dueCommand hdue))

/-- The leg at its command point has its own command due (R184). -/
theorem dueCommand_of_commandLeg {q : Seq} {l : Leg} (h : commandLeg q = some l) : dueCommand q = some l.command := by
  unfold commandLeg at h
  split at h
  · cases h
    rfl
  · cases h

/-- A transfer command that is not due is refused (R188; log entry 12). -/
theorem issueTransfer_refused {c : Instr} (hdue : dueCommand s.seq ≠ some c) :
    issueTransfer c s = .refused .commandNotDue := by
  unfold issueTransfer
  split
  next l hl =>
    have hne : l.command ≠ c := fun hc => hdue ((dueCommand_of_commandLeg hl).trans (congrArg some hc))
    exact if_neg hne
  next => rfl

/-- The closing flush is refused away from its point (R185; log entry 12). -/
theorem execCacheFlush_refused (hdue : dueCommand s.seq ≠ some .cacheFlush) :
    execCacheFlush s = .refused .commandNotDue :=
  if_neg fun hs => hdue (congrArg dueCommand hs)

/-- Settles O28: each device command tests that the sequencer has it due. -/
theorem undueCommandRefused : Obligations.UndueCommandRefused := by
  intro s i hi hdue
  cases i with
  | readSectors => exact issueTransfer_refused hdue
  | writeSectors => exact issueTransfer_refused hdue
  | cacheFlush => exact execCacheFlush_refused hdue
  | _ => cases hi

/-! ### The commands issued -/

/-- READ and both snapshots read (R200, R204). -/
theorem Leg.command_of_ne_write {l : Leg} (hl : l ≠ .write) : l.command = .readSectors := by
  cases l with
  | write => exact absurd rfl hl
  | _ => rfl

/-- At its command point a leg issues its transfer command (R184). -/
theorem exec_legCommand_of_cmd {l : Leg} (hs : s.seq = .run (.leg l .cmd)) :
    exec l.command s = .next (goPoint (.leg l .wrBsy) (zeroLoops (issue l.command s))) := by
  rw [exec_legCommand, issueTransfer, hs]
  exact if_pos rfl

/-- Issuing a transfer command is its one write to `P_STATCMD` and the start of the first sector's `waitReady`, and
nothing else (R184, R188; the loop variables: log entry 6). -/
theorem transferCommand_issued {l : Leg} {c : Instr} (hc : l.command = c) (hs : s.seq = .run (.leg l .cmd)) :
    ∃ t, exec c s = .next t ∧ s.oneTransaction (.out8 .statCmd (s.cmdBase + 7#16) (encode c)) t ∧
      t.device = s.device.out8 .statCmd (encode c) ∧ t.seq = .run (.leg l .wrBsy) ∧ t.loopS = 0#16 ∧ t.loopW = 0#9 ∧
      s.sameStatus t ∧ s.sameBases t ∧ s.sameOperands t ∧ s.sameTransfer t ∧ s.sameSnaps t ∧ s.sameCaller t ∧
      s.sameBytes t := by
  subst hc
  exact ⟨_, exec_legCommand_of_cmd hs, rfl, rfl, rfl, rfl, rfl, ⟨rfl, rfl, rfl, rfl⟩, ⟨rfl, rfl⟩, ⟨rfl, rfl⟩,
    ⟨rfl, rfl, rfl, rfl, rfl, rfl, rfl⟩, ⟨rfl, rfl, rfl, rfl, rfl⟩, ⟨rfl, rfl⟩, fun _ => rfl⟩

/-- Settles O25: READ SECTORS is the command of every leg but WRITE's own. -/
theorem readSectorsIssued : Obligations.ReadSectorsIssued :=
  fun _ _ hs hl => transferCommand_issued (Leg.command_of_ne_write hl) hs

/-- Settles O26: WRITE SECTORS is the command of WRITE's own leg. -/
theorem writeSectorsIssued : Obligations.WriteSectorsIssued :=
  fun _ hs => transferCommand_issued (l := .write) rfl hs

/-- Settles O27: after the command byte is written, `finishTransfer` moves the cursor and completes the WRITE. -/
theorem cacheFlushCompletesWrite : Obligations.CacheFlushCompletesWrite := by
  intro s hs
  have hexec : exec .cacheFlush s = .next (finishTransfer s.tEnd (issue .cacheFlush s)) := if_pos hs
  exact ⟨_, hexec, rfl, rfl, rfl, rfl, rfl, rfl, rfl, ⟨rfl, rfl⟩, ⟨rfl, rfl⟩,
    ⟨rfl, rfl, rfl, rfl, rfl, rfl, rfl⟩, ⟨rfl, rfl⟩, ⟨rfl, rfl, rfl, rfl, rfl⟩, ⟨rfl, rfl⟩, fun _ => rfl⟩

/-! ### FLUSH -/

/-- Settles O19: FLUSH has no check beyond the handle, and its body is the completion alone. -/
theorem flushDoesNothing : Obligations.FlushDoesNothing := by
  refine fun s => ⟨fun hready => ?_, fun hfresh => hfresh.exec_notInitialised rfl nofun⟩
  exact ⟨_, hready.exec_accepted rfl hready.handleFault_eq_none, ⟨hready.ustat_of_completion .flush 0x00#8, rfl, rfl, rfl⟩,
    quiet_update s ..⟩

/-! ### The frame of a port step -/

/-- Nothing but the device, the trace and SEQ is other than before: what a poll or a register write may change. -/
def State.onlyPorts (s t : State) : Prop := t = { s with device := t.device, trace := t.trace, seq := t.seq }

/-- Port steps compose. -/
theorem State.onlyPorts.trans {u : State} (h : s.onlyPorts t) (h' : t.onlyPorts u) : s.onlyPorts u :=
  Eq.trans h' (congrArg (fun x : State => { x with device := u.device, trace := u.trace, seq := u.seq }) h)

/-! What the next step of a sequence reads is as before. -/

theorem State.onlyPorts.callerQueue (h : s.onlyPorts t) : t.callerQueue = s.callerQueue := by
  rw [h]

theorem State.onlyPorts.portAddr (h : s.onlyPorts t) (p : PortName) : t.portAddr p = s.portAddr p := by
  rw [h]
  rfl

theorem State.onlyPorts.legLba (h : s.onlyPorts t) (l : Leg) : t.legLba l = s.legLba l := by
  rw [h]
  rfl

theorem State.onlyPorts.legCount (h : s.onlyPorts t) (l : Leg) : t.legCount l = s.legCount l := by
  rw [h]
  rfl

/-- The same, in the terms of the claims. -/
theorem State.onlyPorts.frame (h : s.onlyPorts t) :
    s.sameStatus t ∧ s.sameBases t ∧ s.sameOperands t ∧ s.sameTransfer t ∧ s.sameLoops t ∧ s.sameSnaps t ∧
      s.sameCaller t ∧ s.sameBytes t := by
  rw [h]
  exact ⟨⟨rfl, rfl, rfl, rfl⟩, ⟨rfl, rfl⟩, ⟨rfl, rfl⟩, ⟨rfl, rfl, rfl, rfl, rfl, rfl, rfl⟩, ⟨rfl, rfl⟩,
    ⟨rfl, rfl, rfl, rfl, rfl⟩, ⟨rfl, rfl⟩, fun _ => rfl⟩

/-- One register write of `beginTransfer` (R182). -/
theorem programStep_onlyPorts (p : PortName) (v : Byte) (pt : Point) (s : State) :
    s.onlyPorts (programStep p v pt s) := rfl

/-! ### One poll -/

/-- A poll is the status read and the choice of the next point (R180, R181). -/
theorem poll_eq (done : Byte → Bool) (pt : Point) (s : State) :
    poll done pt s = { (portIn8 .statCmd s).2 with
      seq := if done (s.device.in8 .statCmd).1 = true then .run pt else s.seq } := by
  by_cases hdone : done (s.device.in8 .statCmd).1 = true
  · rw [if_pos hdone]
    exact if_pos hdone
  · rw [if_neg hdone]
    exact if_neg hdone

theorem poll_device (done : Byte → Bool) (pt : Point) (s : State) :
    (poll done pt s).device = (s.device.in8 .statCmd).2 := by
  rw [poll_eq]
  rfl

/-- The status byte decides where a poll leaves the sequencer. -/
theorem poll_seq_of_run {p : Point} (done : Byte → Bool) (q : Point) (hs : s.seq = .run p) :
    (poll done q s).seq = .run (if done (s.device.in8 .statCmd).1 = true then q else p) := by
  rw [poll_eq]
  show (if _ then _ else s.seq) = _
  rw [hs, ← apply_ite]

theorem poll_onlyPorts (done : Byte → Bool) (pt : Point) (s : State) : s.onlyPorts (poll done pt s) := by
  rw [poll_eq]
  rfl

/-- Every `waitBusy` point polls for BSY=0 (R180). -/
theorem pointStep_of_busyWaitAt {p q : Point} (h : busyWaitAt p q) (s : State) :
    pointStep p s = .next (poll busyClear q s) := by
  rcases h with ⟨l, rfl, rfl⟩ | ⟨l, rfl, rfl⟩ | ⟨rfl, rfl⟩ <;> rfl

/-- With no move of the caller to come, the step at a `waitBusy` point is its poll (R40, R180). -/
theorem step_of_busyWaitAt {p q : Point} (hq : s.callerQueue = []) (hs : s.seq = .run p) (h : busyWaitAt p q) :
    step s = .next (poll busyClear q s) :=
  (step_at hq hs).trans (pointStep_of_busyWaitAt h s)

/-- BSY keeps the sequencer at its `waitBusy` point (R93, R180). -/
theorem poll_busyClear_seq {p : Point} (q : Point) (hs : s.seq = .run p) :
    (poll busyClear q s).seq = .run (if (s.device.in8 .statCmd).1.getLsbD 7 = true then p else q) := by
  rw [poll_seq_of_run busyClear q hs, busyClear, statusBsy]
  cases (s.device.in8 .statCmd).1.getLsbD 7 <;> rfl

/-- Settles O29: the three kinds of `waitBusy` point run the same poll. -/
theorem busyWaitTestsBitSeven : Obligations.BusyWaitTestsBitSeven :=
  fun s _ q hq hs h => ⟨_, step_of_busyWaitAt hq hs h, poll_oneTransaction busyClear q s, poll_device busyClear q s,
    poll_busyClear_seq q hs, (poll_onlyPorts busyClear q s).frame⟩

/-- Settles O30: the first loop is a `waitBusy`, the second a poll for DRQ. -/
theorem readyWaitTestsBitThree : Obligations.ReadyWaitTestsBitThree := by
  refine fun s l hq => ⟨fun hs => ?busy, fun hs => ?ready⟩
  case busy =>
    have hwait : busyWaitAt (.leg l .wrBsy) (.leg l .wrDrq) := .inr (.inl ⟨l, rfl, rfl⟩)
    refine ⟨_, step_of_busyWaitAt hq hs hwait, (poll_busyClear_seq _ hs).trans ?_⟩
    rw [apply_ite (Point.leg l)]
  case ready =>
    refine ⟨_, step_at hq hs, poll_oneTransaction dataReady _ s, poll_device dataReady _ s,
      (poll_seq_of_run dataReady _ hs).trans ?_, (poll_onlyPorts dataReady _ s).frame⟩
    rw [apply_ite (Point.leg l)]
    rfl

/-! ### The floating bus -/

/-- A run goes on after its first step. -/
theorem steps_succ_of_step {n : Nat} (h : step s = .next t) : steps (n + 1) s = steps n t := by
  rw [steps_succ, h]

/-- A read of a floating bus is `0xFF` and leaves the bus as it is (R78). -/
theorem in8_of_absent {d : Device} (hd : d = .absent) (p : PortName) : d.in8 p = (0xFF#8, .absent) := by
  rw [hd]
  rfl

/-- A floating bus answers every status read with BSY=1, so the poll is the read alone (R78, R187). -/
theorem poll_busyClear_of_absent (q : Point) (hd : s.device = .absent) :
    poll busyClear q s = (portIn8 .statCmd s).2 := by
  have hbusy : busyClear (portIn8 .statCmd s).1 = false := by
    rw [portIn8_value, in8_of_absent hd]
    rfl
  exact if_neg (Bool.eq_false_iff.mp hbusy)

/-- Settles O31, by induction on the number of steps: one poll of the floating bus comes back to the same point with one
more read in the trace, at a state where the claim holds again. -/
theorem floatingBusHangs : Obligations.FloatingBusHangs := by
  intro s p q n hq hs hwait hd
  induction n generalizing s with
  | zero => exact ⟨s, rfl, hs, rfl, ⟨rfl, rfl, rfl, rfl⟩, fun _ => rfl⟩
  | succ n ih =>
    have hstep : step s = .next (portIn8 .statCmd s).2 :=
      (step_of_busyWaitAt hq hs hwait).trans (congrArg _ (poll_busyClear_of_absent q hd))
    have hread := in8_of_absent hd .statCmd
    obtain ⟨t, hrun, hseq, htrace, hstatus, hbytes⟩ := ih (portIn8 .statCmd s).2 hq hs (congrArg Prod.snd hread)
    refine ⟨t, (steps_succ_of_step hstep).trans hrun, hseq, ?_, hstatus, hbytes⟩
    have hfirst : (portIn8 .statCmd s).2.trace = .in8 .statCmd (s.cmdBase + 7#16) 0xFF#8 :: s.trace :=
      congrArg (PortTx.in8 .statCmd (s.cmdBase + 7#16) · :: s.trace) (congrArg Prod.fst hread)
    rw [htrace, hfirst, portIn8_cmdBase, List.replicate_succ', List.append_assoc]
    rfl

/-! ### Register programming -/

/-- A register write of `beginTransfer` from a state that a run of such steps from `s` has come to: the write, the next
point, and nothing else (R182). -/
theorem step_program {a : State} {p q : Point} {port : PortName} {v : Byte} (hq : s.callerQueue = [])
    (ha : s.onlyPorts a) (hs : a.seq = .run p) (hpoint : pointStep p a = .next (programStep port v q a)) :
    ∃ b, step a = .next b ∧ b.seq = .run q ∧ b.trace = .out8 port (s.portAddr port) v :: a.trace ∧ s.onlyPorts b := by
  have hqueue : a.callerQueue = [] := ha.callerQueue.trans hq
  refine ⟨_, (step_at hqueue hs).trans hpoint, rfl, ?_, ha.trans (programStep_onlyPorts port v q a)⟩
  rw [← ha.portAddr]
  rfl

/-- The sector a leg programs, as a number: T_LBA, for the end snapshot `T_END div 512` (R182, R221, R222). -/
theorem legLba_toNat (s : State) (l : Leg) :
    (s.legLba l).toNat = if l = .snapEnd then s.tEnd.toNat / 512 else s.tLba.toNat := by
  have hend : s.tEnd.toNat / 512 < 2 ^ 64 := by omega
  cases l with
  | snapEnd => exact (BitVec.toNat_ofNat ..).trans (Nat.mod_eq_of_lt hend)
  | _ => rfl

/-- The sector count a leg programs, as a number: T_SECT, for a snapshot 1 (R182, R204). -/
theorem legCount_toNat (s : State) (l : Leg) :
    (s.legCount l).toNat = if l = .snapStart ∨ l = .snapEnd then 1 else s.tSect.toNat := by
  cases l <;> rfl

/-- The drive-select byte as a number (R89). -/
theorem driveSelectByte_eq (lba : Word64) :
    driveSelectByte lba = BitVec.ofNat 8 (0xF0 + lba.toNat / 2 ^ 24 % 16) := by
  have hnibble : ∀ n : BitVec 4, 0xF0#8 ||| BitVec.setWidth 8 n = BitVec.ofNat 8 (0xF0 + n.toNat) := by decide
  rw [driveSelectByte, hnibble, BitVec.extractLsb'_toNat, Nat.shiftRight_eq_div_pow]

/-- The LBA-mid byte as a number (R91). -/
theorem lbaMidByte_eq (lba : Word64) : lbaMidByte lba = BitVec.ofNat 8 (lba.toNat / 2 ^ 8) :=
  congrArg _ (Nat.shiftRight_eq_div_pow ..)

/-- The LBA-high byte as a number (R91). -/
theorem lbaHighByte_eq (lba : Word64) : lbaHighByte lba = BitVec.ofNat 8 (lba.toNat / 2 ^ 16) :=
  congrArg _ (Nat.shiftRight_eq_div_pow ..)

/-- Settles O32: one poll with BSY=0, then the five writes; none of the six steps moves a register that a later byte or
address comes from. -/
theorem programmingSequence : Obligations.ProgrammingSequence := by
  intro s l lba n hq hs hclear hlba hn
  obtain rfl : lba = (s.legLba l).toNat := hlba.trans (legLba_toNat s l).symm
  obtain rfl : n = (s.legCount l).toNat := hn.trans (legCount_toNat s l).symm
  obtain ⟨sel, hpoll, hsel, hread, fsel⟩ : ∃ t, step s = .next t ∧ t.seq = .run (.leg l .sel) ∧
      t.trace = .in8 .statCmd (s.cmdBase + 7#16) (s.device.in8 .statCmd).1 :: s.trace ∧ s.onlyPorts t :=
    ⟨_, step_of_busyWaitAt hq hs (.inl ⟨l, rfl, rfl⟩), (poll_busyClear_seq _ hs).trans (by rw [hclear]; rfl),
      poll_oneTransaction busyClear _ s, poll_onlyPorts busyClear _ s⟩
  obtain ⟨cnt, hdrive, hcnt, htdrive, fcnt⟩ := step_program hq fsel hsel rfl
  obtain ⟨l0, hcount, hl0, htcount, fl0⟩ := step_program hq fcnt hcnt rfl
  obtain ⟨l1, hlow, hl1, htlow, fl1⟩ := step_program hq fl0 hl0 rfl
  obtain ⟨l2, hmid, hl2, htmid, fl2⟩ := step_program hq fl1 hl1 rfl
  obtain ⟨t, hhigh, hcmd, hthigh, ft⟩ := step_program hq fl2 hl2 rfl
  obtain ⟨hstatus, hbases, hoperands, htransfer, -, hsnaps, -, hbytes⟩ := ft.frame
  refine ⟨t, ?run, hcmd, ?trace, hstatus, hbases, hoperands, htransfer, hsnaps, hbytes⟩
  case run =>
    rw [steps_succ_of_step hpoll, steps_succ_of_step hdrive, steps_succ_of_step hcount, steps_succ_of_step hlow,
      steps_succ_of_step hmid, steps_one hhigh]
  case trace =>
    rw [hthigh, htmid, htlow, htcount, htdrive, hread, fl2.legLba, fl1.legLba, fl0.legLba, fcnt.legCount, fsel.legLba,
      driveSelectByte_eq, lbaMidByte_eq, lbaHighByte_eq]
    rfl

end Sys2Proof.Machine
end

section
/-! PROOFS. The read path's steps (R200 to R204): READ accepted, a data word scattered to the buffer, a snapshot's word
kept, and what comes after a data word. -/

namespace Sys2Proof.Machine

variable {s t : State}

/-! ### READ accepted -/

/-- READ of at least one byte goes to the wait before programming (R200). -/
theorem readBody_of_length (hl : 0 < s.arg1.toNat) :
    readBody s = goPoint (.leg .read .bw) (latchTransfer .read s) :=
  if_neg fun hzero => hl.ne' (congrArg BitVec.toNat hzero)

/-- A READ whose operands fit, of at least one byte, is accepted and goes to the wait before programming (R39, R200). -/
theorem execRead_of_length (h : s.Ready) (hfit : s.TransferFits) (hl : 0 < s.arg1.toNat) :
    exec .read s = .next (goPoint (.leg .read .bw) (latchTransfer .read (accepted .read s))) :=
  (execRead_of_ready h hfit).trans (congrArg _ (readBody_of_length hl))

/-- Settles O22: acceptance sets BUSY and REQ, the latching writes the registers of R30, and nothing else changes. -/
theorem readAccepted : Obligations.ReadAccepted := by
  intro s hready hfit hl
  have hfault : s.faultFlag = false := by rw [hready.status.fault, hready.seq]; rfl
  have hustat : ustatOf true s.inited s.faultFlag s.err = ustatOf true true false s.err := by
    rw [hready.accepts.2.2, hfault]
  exact ⟨_, execRead_of_length hready hfit hl, rfl, hustat, rfl, rfl, ⟨rfl, rfl⟩, ⟨rfl, rfl⟩, ⟨rfl, rfl⟩,
    ⟨rfl, rfl, rfl, rfl, rfl⟩, ⟨rfl, rfl⟩, fun _ => rfl, ⟨rfl, rfl⟩⟩

/-! ### The scatter of a data word -/

theorem memWrite_get_self {m m' : Memory} {a : Nat} {v : Byte} (h : memWrite m a v = some m') (hm : m.wf = true) :
    m'.get a = v := by
  obtain ⟨-, rfl⟩ := memWrite_eq_some.1 h
  rw [Memory.get_set m hm, if_pos rfl]

/-- The byte at the word's index is the low one (R53, R202). -/
theorem byteFor_low {idx : Int} {i : Nat} (h : (i : Int) = idx) (v : Word16) : byteFor idx i v = loByte v :=
  if_pos h

/-- The byte one past the word's index is the high one (R53, R202). -/
theorem byteFor_high {idx : Int} {i : Nat} (h : (i : Int) = idx + 1) (v : Word16) : byteFor idx i v = hiByte v :=
  if_neg (by omega)

/-- The scatter puts the byte of R202 at every index the word moves. -/
theorem scatter_get_of_moved {buf l i : Nat} {idx : Int} {v : Word16} {m m' : Memory}
    (h : scatter buf idx l v m = some m') (hm : m.wf = true) (hi : i ∈ movedIndices idx l) :
    m'.get (buf + i) = byteFor idx i v := by
  unfold scatter at h
  cases hc : wordClass idx l with
  | straddleLow =>
    have hidx : idx = -1 := wordClass_eq_iff.1 hc
    rw [hc] at h
    rw [movedIndices_of_straddleLow hc, List.mem_singleton] at hi
    subst hi
    rw [memWrite_get_self h hm, byteFor_high (by omega)]
  | before => rw [movedIndices_of_before hc] at hi; cases hi
  | inside =>
    obtain ⟨hlow, -⟩ := wordClass_eq_iff.1 hc
    rw [hc] at h
    dsimp only at h
    split at h
    next m₁ h₁ =>
      rw [movedIndices_of_inside hc, List.mem_pair] at hi
      rcases hi with rfl | rfl
      · rw [memWrite_get_of_ne h (memWrite_wf h₁ hm) (by omega), memWrite_get_self h₁ hm, byteFor_low (by omega)]
      · rw [← Nat.add_assoc, memWrite_get_self h (memWrite_wf h₁ hm), byteFor_high (by omega)]
    next => cases h
  | straddleHigh =>
    obtain ⟨hlow, -⟩ := wordClass_eq_iff.1 hc
    rw [hc] at h
    rw [movedIndices_of_straddleHigh hc, List.mem_singleton] at hi
    subst hi
    rw [memWrite_get_self h hm, byteFor_low (by omega)]
  | after => rw [movedIndices_of_after hc] at hi; cases hi

/-! ### What comes after a data word -/

/-- Before a sector's last word comes the next word (R201, R224). -/
theorem nextWord_of_lt {l : Leg} {done : State → State} (hw : s.loopW.toNat < 255) : nextWord l done s = bumpWord s :=
  if_pos hw

/-- After a sector's last word comes the next sector's `waitReady` (R201, R224). -/
theorem nextWord_of_more_sectors {l : Leg} {done : State → State} (hw : s.loopW.toNat = 255)
    (hsec : s.loopS.toNat + 1 < s.tSect.toNat) : nextWord l done s = goPoint (.leg l .wrBsy) (bumpSector s) := by
  rw [nextWord, if_neg (by omega), if_pos hsec]

/-- After the last sector's last word comes the end of the data phase (R200, R226). -/
theorem nextWord_of_last {l : Leg} {done : State → State} (hw : s.loopW.toNat = 255)
    (hsec : s.loopS.toNat + 1 = s.tSect.toNat) : nextWord l done s = done s := by
  rw [nextWord, if_neg (by omega), if_neg (by omega)]

/-- A data word of READ or WRITE hands the loop variables, as they were, to `nextWord`; READ completes at the end of the
phase, WRITE goes to its flush (R201, R224, R226). -/
theorem xferStep_nextWord {l : Leg} (h : s.Inv) (hs : s.seq = .run (.leg l .xfer)) (hl : l = .read ∨ l = .write)
    (ht : xferStep l s = .next t) :
    ∃ done u, t = nextWord l done u ∧ u.loopS = s.loopS ∧ u.loopW = s.loopW ∧ u.tSect = s.tSect ∧ u.seq = s.seq ∧
      (done u).seq = if l = .read then .idle else .run .flBsy := by
  rcases hl with rfl | rfl
  · obtain ⟨m, -, rfl⟩ := readWordStep_next ht
    exact ⟨endOfRead, _, rfl, rfl, rfl, rfl, rfl, rfl⟩
  · rcases writeWordStep_cases s with ⟨v, -, e⟩ | ⟨hm, -⟩ | ⟨-, e⟩
    · cases e.symm.trans ht
      exact ⟨goPoint .flBsy, _, rfl, rfl, rfl, rfl, rfl, rfl⟩
    · exact absurd hm (mergeWord_ne_unwritten_of_inv h hs)
    · cases e.symm.trans ht

/-- Settles O41: READ and WRITE share `nextWord`, whose three branches are the three clauses; `w` is below 256 and `s`
below 255, so neither wraps. -/
theorem dataPhaseOrder : Obligations.DataPhaseOrder := by
  intro s t l h hq hs hl ht
  obtain ⟨-, -, -, ⟨-, hok, -, -⟩, -⟩ := running_facts h hs
  have hmax := hok.sectorsMax
  obtain ⟨done, u, rfl, hS, hW, hT, hseq, hdone⟩ := xferStep_nextWord h hs hl ((step_at hq hs).symm.trans ht)
  rw [← hS, ← hW, ← hT, ← hseq.trans hs]
  rw [← hT] at hmax
  refine ⟨fun hw => ?word, fun hw hsec => ?sector, fun hw hsec => ?last⟩
  case word =>
    rw [nextWord_of_lt hw]
    exact ⟨rfl, rfl, toNat_add9 (by omega)⟩
  case sector =>
    rw [nextWord_of_more_sectors hw hsec]
    exact ⟨rfl, toNat_add16 (by omega), rfl⟩
  case last => rw [nextWord_of_last hw hsec, hdone]

/-! ### READ's data word -/

@[simp] theorem portAddr_data (s : State) : s.portAddr .data = s.cmdBase := BitVec.add_zero _

/-- A data read is one transaction, at CMD_BASE (R110, R115). -/
theorem portIn16_oneTransaction (s : State) : s.oneTransaction (.in16 s.cmdBase s.device.in16.1) (portIn16 s).2 :=
  congrArg (PortTx.in16 · s.device.in16.1 :: s.trace) (portAddr_data s)

/-- Nothing but the loop variables, SEQ and what the end of a READ writes is other than before: what the update after
READ's data word may change. -/
def State.onlyProgress (s t : State) : Prop :=
  t = { s with loopS := t.loopS, loopW := t.loopW, seq := t.seq, pos := t.pos, ustat := t.ustat, result := t.result }

/-- After READ's data word the loop variables go on or READ completes (R200, R201). -/
theorem nextWord_endOfRead_onlyProgress (s : State) : s.onlyProgress (nextWord .read endOfRead s) := by
  rcases nextWord_cases .read endOfRead s with e | e | e <;> rw [e] <;> rfl

/-- From a legal state READ's data word finds its buffer bytes, so the step scatters it and goes on (R201, R51). -/
theorem step_readWord (h : s.Inv) (hq : s.callerQueue = []) (hs : s.seq = .run (.leg .read .xfer)) :
    ∃ m, scatter s.tBuf.toNat s.wordIdx s.tL.toNat s.device.in16.1 s.mem = some m ∧
      step s = .next (nextWord .read endOfRead (setMem m (portIn16 s).2)) := by
  obtain ⟨-, -, -, ⟨-, hok, -, -⟩, -⟩ := running_facts h hs
  obtain ⟨m, hm⟩ := scatter_isSome (idx := s.wordIdx) hok.bufferInRange hok.nonempty s.device.in16.1 s.mem
  refine ⟨m, hm, (step_at hq hs).trans ?_⟩
  show readWordStep s = _
  rw [readWordStep, portIn16_value, hm]

/-- Settles O38: the step is the scatter of the word read, after which only the loop variables, SEQ and the registers
of a completion move. -/
theorem readWordLandsInBuffer : Obligations.ReadWordLandsInBuffer := by
  intro s h hq hs
  obtain ⟨m, hm, hstep⟩ := step_readWord h hq hs
  refine ⟨_, hstep, ?_⟩
  rw [nextWord_endOfRead_onlyProgress (setMem m (portIn16 s).2)]
  refine ⟨?trace, rfl, fun i hi => scatter_get_of_moved hm h.memWf hi,
    fun a ha => scatter_get_of_not_moved hm h.memWf ha, ⟨rfl, rfl⟩, ⟨rfl, rfl⟩, ⟨rfl, rfl, rfl, rfl, rfl, rfl, rfl⟩, ⟨rfl, rfl, rfl, rfl, rfl⟩⟩
  case trace => exact portIn16_oneTransaction s

/-! ### A snapshot's data word -/

/-- Before the last word of a snapshot comes the next one (R204). -/
theorem nextSnapWord_of_lt {done : State → State} (hw : s.loopW.toNat < 255) : nextSnapWord done s = bumpWord s :=
  if_pos hw

/-- After the last word comes the end of the snapshot (R204). -/
theorem nextSnapWord_of_last {done : State → State} (hw : s.loopW.toNat = 255) : nextSnapWord done s = done s :=
  if_neg (by omega)

/-- A kept word is its element of the snapshot, and the others are as before (R204). -/
theorem snapshot_set {a : Snapshot} {w : Nat} (hw : w < 256) (v : Word16) :
    (a.setIfInBounds w (some v))[w]? = some (some v) ∧
      ∀ k, k ≠ w → (a.setIfInBounds w (some v))[k]? = a[k]? :=
  ⟨by simp [hw], fun _ hk => Vector.getElem?_setIfInBounds_ne hk.symm⟩

/-- Nothing but the loop variable `w`, SEQ and the flags of the snapshots is other than before: what the update after a
snapshot's word may change. -/
def State.onlySnapProgress (s t : State) : Prop :=
  t = { s with loopW := t.loopW, seq := t.seq, haveStart := t.haveStart, haveEnd := t.haveEnd }

theorem nextSnapWord_onlySnapProgress {done : State → State} (hdone : s.onlySnapProgress (done s)) :
    s.onlySnapProgress (nextSnapWord done s) := by
  rcases nextSnapWord_cases done s with e | e <;> rw [e]
  exacts [rfl, hdone]

theorem snapStartStep_onlySnapProgress (s : State) :
    State.onlySnapProgress (keepStart (portIn16 s).1 (portIn16 s).2) (snapStartStep s) :=
  nextSnapWord_onlySnapProgress rfl

theorem snapEndStep_onlySnapProgress (s : State) :
    State.onlySnapProgress (keepEnd (portIn16 s).1 (portIn16 s).2) (snapEndStep s) :=
  nextSnapWord_onlySnapProgress rfl

/-- The same, in the terms of the claims. -/
theorem State.onlySnapProgress.frame (h : s.onlySnapProgress t) :
    t.trace = s.trace ∧ t.device = s.device ∧ s.sameStatus t ∧ s.sameBases t ∧ s.sameOperands t ∧ s.sameTransfer t ∧
      s.sameBytes t := by
  rw [h]
  exact ⟨rfl, rfl, ⟨rfl, rfl, rfl, rfl⟩, ⟨rfl, rfl⟩, ⟨rfl, rfl⟩, ⟨rfl, rfl, rfl, rfl, rfl, rfl, rfl⟩, fun _ => rfl⟩

/-- START_SNAP's flag is set with word 255 (R221). -/
theorem nextSnapWord_endOfStartSnap_flags (hw : s.loopW.toNat < 256) (hstart : s.haveStart = false) :
    (nextSnapWord endOfStartSnap s).haveStart = decide (s.loopW.toNat = 255) ∧
      (nextSnapWord endOfStartSnap s).haveEnd = s.haveEnd := by
  rcases Nat.lt_or_eq_of_le (Nat.le_of_lt_succ hw) with hlt | hlast
  · rw [nextSnapWord_of_lt hlt, decide_eq_false hlt.ne]
    exact ⟨hstart, rfl⟩
  · rw [nextSnapWord_of_last hlast, decide_eq_true hlast]
    exact ⟨rfl, rfl⟩

/-- END_SNAP's flag is set with word 255 (R222). -/
theorem nextSnapWord_endOfEndSnap_flags (hw : s.loopW.toNat < 256) (hend : s.haveEnd = false) :
    (nextSnapWord endOfEndSnap s).haveEnd = decide (s.loopW.toNat = 255) ∧
      (nextSnapWord endOfEndSnap s).haveStart = s.haveStart := by
  rcases Nat.lt_or_eq_of_le (Nat.le_of_lt_succ hw) with hlt | hlast
  · rw [nextSnapWord_of_lt hlt, decide_eq_false hlt.ne]
    exact ⟨hend, rfl⟩
  · rw [nextSnapWord_of_last hlast, decide_eq_true hlast]
    exact ⟨rfl, rfl⟩

/-- From a legal state the step of START_SNAP's word keeps it as its element (R204, R221). -/
theorem snapStartWord_kept (h : s.Inv) (hs : s.seq = .run (.leg .snapStart .xfer)) :
    (snapStartStep s).startSnap[s.loopW.toNat]? = some (some s.device.in16.1) ∧
      (∀ k, k ≠ s.loopW.toNat → (snapStartStep s).startSnap[k]? = s.startSnap[k]?) ∧
      (snapStartStep s).endSnap = s.endSnap ∧ (snapStartStep s).haveStart = decide (s.loopW.toNat = 255) ∧
      (snapStartStep s).haveEnd = s.haveEnd := by
  obtain ⟨-, -, -, ⟨-, -, ⟨hw, -⟩, -, hstart, -, -⟩, -⟩ := running_facts h hs
  obtain ⟨hself, hother⟩ := snapshot_set (a := s.startSnap) hw s.device.in16.1
  obtain ⟨hflag, hkeep⟩ := nextSnapWord_endOfStartSnap_flags (s := keepStart (portIn16 s).1 (portIn16 s).2) hw hstart
  have hframe := snapStartStep_onlySnapProgress s
  refine ⟨?_, ?_, ?_, hflag, hkeep⟩ <;> rw [hframe]
  exacts [hself, hother, rfl]

/-- From a legal state the step of END_SNAP's word keeps it as its element (R204, R222). -/
theorem snapEndWord_kept (h : s.Inv) (hs : s.seq = .run (.leg .snapEnd .xfer)) :
    (snapEndStep s).endSnap[s.loopW.toNat]? = some (some s.device.in16.1) ∧
      (∀ k, k ≠ s.loopW.toNat → (snapEndStep s).endSnap[k]? = s.endSnap[k]?) ∧
      (snapEndStep s).startSnap = s.startSnap ∧ (snapEndStep s).haveEnd = decide (s.loopW.toNat = 255) ∧
      (snapEndStep s).haveStart = s.haveStart := by
  obtain ⟨-, -, -, ⟨-, -, ⟨hw, -⟩, -, -, hend, -⟩, -⟩ := running_facts h hs
  obtain ⟨hself, hother⟩ := snapshot_set (a := s.endSnap) hw s.device.in16.1
  obtain ⟨hflag, hkeep⟩ := nextSnapWord_endOfEndSnap_flags (s := keepEnd (portIn16 s).1 (portIn16 s).2) hw hend
  have hframe := snapEndStep_onlySnapProgress s
  refine ⟨?_, ?_, ?_, hflag, hkeep⟩ <;> rw [hframe]
  exacts [hself, hother, rfl]

/-- Settles O39: the step keeps the word it reads in its array; after that only `w`, SEQ and the array's flag move. -/
theorem snapshotWordKept : Obligations.SnapshotWordKept := by
  rintro s l h hq hs (rfl | rfl)
  · obtain ⟨htrace, hdevice, hframe⟩ := (snapStartStep_onlySnapProgress s).frame
    exact ⟨_, step_at hq hs, htrace.trans (portIn16_oneTransaction s), hdevice, fun _ => snapStartWord_kept h hs, nofun,
      hframe⟩
  · obtain ⟨htrace, hdevice, hframe⟩ := (snapEndStep_onlySnapProgress s).frame
    exact ⟨_, step_at hq hs, htrace.trans (portIn16_oneTransaction s), hdevice, nofun, fun _ => snapEndWord_kept h hs,
      hframe⟩

end Sys2Proof.Machine
end

section
/-! PROOFS. A whole READ against the reference device (R203): the programming and the waits of a leg with that device,
the place of its data stream, and READ's data phase word by word. -/

namespace Sys2Proof.Machine

variable {s t : State} {d e : RefDevice}

/-! ### A leg with the reference device -/

/-- A run from a legal state reaches a legal state. -/
theorem inv_steps {n : Nat} (h : s.Inv) (ht : steps n s = .next t) : t.Inv := by
  induction n generalizing s with
  | zero => cases ht; exact h
  | succ n ih =>
    rw [steps_succ] at ht
    split at ht
    next u hu => exact ih (stepKeepsLegalStates s u h hu) ht
    next => cases ht
    next => cases ht

/-- A read of the reference device's status leaves the device (R76). -/
theorem in8_statCmd_of_present (hd : s.device = .present d) :
    s.device.in8 .statCmd = (d.status, .present d) := by
  rw [hd]
  rfl

/-- The reference device is never busy (R76). -/
theorem busyClear_status (d : RefDevice) : busyClear d.status = true := by
  unfold RefDevice.status
  split <;> rfl

/-- A poll that the reference device's status ends goes on and leaves the device (R76, R180, R181). -/
theorem step_poll_done {pt : Point} {l : Leg} {p : Stage} {done : Byte → Bool} (hq : s.callerQueue = [])
    (hd : s.device = .present d) (hs : s.seq = .run (.leg l p)) (hpoint : legStep l p s = .next (poll done pt s))
    (hdone : done d.status = true) :
    ∃ t, step s = .next t ∧ t.seq = .run pt ∧ t.device = .present d ∧ s.onlyPorts t := by
  have hread := in8_statCmd_of_present hd
  refine ⟨_, (step_at hq hs).trans hpoint, ?_, ?_, poll_onlyPorts done pt s⟩
  · rw [poll_seq_of_run done pt hs, hread, if_pos hdone]
  · rw [poll_device, hread]

/-- A register write of `beginTransfer` reaches the device (R182). -/
theorem step_program_device {p : Stage} {l : Leg} {port : PortName} {v : Byte} {pt : Point} (hq : s.callerQueue = [])
    (hd : s.device = .present d) (hs : s.seq = .run (.leg l p))
    (hpoint : legStep l p s = .next (programStep port v pt s)) :
    ∃ t, step s = .next t ∧ t.seq = .run pt ∧ t.device = .present (d.out8 port v) ∧ s.onlyPorts t := by
  refine ⟨_, (step_at hq hs).trans hpoint, rfl, ?_, programStep_onlyPorts port v pt s⟩
  show s.device.out8 port v = _
  rw [hd]
  rfl

/-- The reference device after `beginTransfer` of a sector and a count (R76, R182). -/
def RefDevice.programmed (d : RefDevice) (lba : Word64) (n : Word16) : RefDevice :=
  { d with
    ds := driveSelectByte lba
    sc := sectorCountByte n
    lb0 := lbaLowByte lba
    lb1 := lbaMidByte lba
    lb2 := lbaHighByte lba }

/-- The programmed sector has the low 28 bits of the LBA (R76, R89, R91, R183). -/
theorem programmed_lba (d : RefDevice) (lba : Word64) (n : Word16) :
    (d.programmed lba n).lba = BitVec.ofNat 28 lba.toNat := by
  have hnibble : ∀ b : BitVec 4, (0xF0#8 ||| BitVec.setWidth 8 b).extractLsb' 0 4 = b := by decide
  have hds : (driveSelectByte lba).extractLsb' 0 4 = lba.extractLsb' 24 4 := hnibble _
  calc (d.programmed lba n).lba
      = lba.extractLsb' 24 4 ++ (lba.extractLsb' 16 8 ++ (lba.extractLsb' 8 8 ++ lba.extractLsb' 0 8)) :=
        congrArg (· ++ (lbaHighByte lba ++ (lbaMidByte lba ++ lbaLowByte lba))) hds
    _ = lba.extractLsb' 0 28 := by
        rw [BitVec.extractLsb'_append_extractLsb'_eq_extractLsb' (by decide),
          BitVec.extractLsb'_append_extractLsb'_eq_extractLsb' (by decide),
          BitVec.extractLsb'_append_extractLsb'_eq_extractLsb' (by decide)]

/-- A programmed count from 1 to 255 is the device's count (R76, R90). -/
theorem programmed_count (d : RefDevice) (lba : Word64) {n : Word16} (hpos : 0 < n.toNat) (hmax : n.toNat ≤ 255) :
    (d.programmed lba n).count = n.toNat := by
  have hbyte : (sectorCountByte n).toNat = n.toNat := by
    simp only [sectorCountByte, BitVec.extractLsb'_toNat, Nat.shiftRight_zero]
    omega
  exact (if_neg (sectorCountByte_ne_zero hpos hmax)).trans hbyte

/-- `beginTransfer` against the reference device: six steps to the command point, with the leg's sector and count in the
device's registers (R182). -/
theorem steps_beginTransfer {l : Leg} (hq : s.callerQueue = []) (hd : s.device = .present d)
    (hs : s.seq = .run (.leg l .bw)) :
    ∃ t, steps 6 s = .next t ∧ t.seq = .run (.leg l .cmd) ∧
      t.device = .present (d.programmed (s.legLba l) (s.legCount l)) ∧ s.onlyPorts t := by
  obtain ⟨sel, hpoll, hsel, dsel, fsel⟩ := step_poll_done hq hd hs rfl (busyClear_status d)
  obtain ⟨cnt, hdrive, hcnt, dcnt, fcnt⟩ := step_program_device (fsel.callerQueue.trans hq) dsel hsel rfl
  have fcnt := fsel.trans fcnt
  obtain ⟨l0, hcount, hl0, dl0, fl0⟩ := step_program_device (fcnt.callerQueue.trans hq) dcnt hcnt rfl
  have fl0 := fcnt.trans fl0
  obtain ⟨l1, hlow, hl1, dl1, fl1⟩ := step_program_device (fl0.callerQueue.trans hq) dl0 hl0 rfl
  have fl1 := fl0.trans fl1
  obtain ⟨l2, hmid, hl2, dl2, fl2⟩ := step_program_device (fl1.callerQueue.trans hq) dl1 hl1 rfl
  have fl2 := fl1.trans fl2
  obtain ⟨t, hhigh, hcmd, dt, ft⟩ := step_program_device (fl2.callerQueue.trans hq) dl2 hl2 rfl
  refine ⟨t, ?run, hcmd, ?device, fl2.trans ft⟩
  case run =>
    rw [steps_succ_of_step hpoll, steps_succ_of_step hdrive, steps_succ_of_step hcount, steps_succ_of_step hlow,
      steps_succ_of_step hmid, steps_one hhigh]
  case device =>
    rw [dt, fsel.legLba, fcnt.legCount, fl0.legLba, fl1.legLba, fl2.legLba]
    rfl

/-- `waitReady` against the reference device in a data phase: two steps to the data point (R76, R181). -/
theorem steps_waitReady {l : Leg} (hq : s.callerQueue = []) (hd : s.device = .present d)
    (hs : s.seq = .run (.leg l .wrBsy)) (hready : dataReady d.status = true) :
    ∃ t, steps 2 s = .next t ∧ t.seq = .run (.leg l .xfer) ∧ t.device = .present d ∧ s.onlyPorts t := by
  obtain ⟨u, hbusy, hu, du, fu⟩ := step_poll_done hq hd hs rfl (busyClear_status d)
  obtain ⟨t, hdrq, ht, dt, ft⟩ := step_poll_done (fu.callerQueue.trans hq) du hu rfl hready
  exact ⟨t, steps_trans (steps_one hbusy) (steps_one hdrq), ht, dt, fu.trans ft⟩

/-! ### The data stream of the reference device -/

/-- The place of word `n` in the stream of `r` sectors from sector `q` on: its sector, modulo `2^28`, the sectors left
and the word (R75, R77). -/
def streamAt (q r n : Nat) : BitVec 28 × Nat × Nat := (BitVec.ofNat 28 (q + n / 256), r - n / 256, n % 256)

/-- The stream goes from each word to the next, and ends with the last (R77). -/
theorem streamNext_streamAt {q r n : Nat} (hn : n < 256 * r) :
    streamNext (streamAt q r n).1 (streamAt q r n).2.1 (streamAt q r n).2.2 =
      if n + 1 < 256 * r then some (streamAt q r (n + 1)) else none := by
  unfold streamNext streamAt
  dsimp only
  by_cases hw : n % 256 < 255
  · rw [if_pos hw, if_pos (by omega), show (n + 1) / 256 = n / 256 by omega, show (n + 1) % 256 = n % 256 + 1 by omega]
  · rw [if_neg hw]
    by_cases hmore : n + 1 < 256 * r
    · rw [if_pos (by omega), if_pos hmore, show (n + 1) / 256 = n / 256 + 1 by omega, show (n + 1) % 256 = 0 by omega,
        Nat.sub_sub, ← BitVec.ofNat_add, Nat.add_assoc]
    · rw [if_neg (by omega), if_neg hmore]

/-- The device is in a read of `r` sectors from sector `q` on, `n` words in (R75). -/
def pioInAt (q r n : Nat) : DevPhase := .pioIn (streamAt q r n).1 (streamAt q r n).2.1 (streamAt q r n).2.2

/-- A data read takes the device to the next word, the last one to its idle phase (R77). -/
theorem pioInNext_streamAt {q r n : Nat} (hn : n < 256 * r) :
    pioInNext (streamAt q r n).1 (streamAt q r n).2.1 (streamAt q r n).2.2 =
      if n + 1 < 256 * r then pioInAt q r (n + 1) else .idle := by
  rw [pioInNext, streamNext_streamAt hn]
  split_ifs <;> rfl

/-- A data read in a read phase: the word of the disk there (R76). -/
theorem in16_of_pioInAt {q r n : Nat} (hd : s.device = .present d) (hp : d.phase = pioInAt q r n) (hn : n < 256 * r) :
    s.device.in16 = (diskWord d.disk (BitVec.ofNat 28 (q + n / 256)) (n % 256),
      .present { d with phase := if n + 1 < 256 * r then pioInAt q r (n + 1) else .idle }) := by
  rw [hd, ← pioInNext_streamAt hn]
  show (d.in16.1, Device.present d.in16.2) = _
  rw [RefDevice.in16, hp]
  rfl

/-- In a read phase the device shows DRQ (R76, R93). -/
theorem dataReady_of_pioInAt {q r n : Nat} (hp : d.phase = pioInAt q r n) : dataReady d.status = true := by
  have hstatus : d.status = 0x08#8 := by rw [RefDevice.status, hp]; rfl
  rw [hstatus]
  rfl

/-- READ SECTORS starts a read of the programmed sectors (R76, R184). -/
theorem programmed_readSectors {lba : Word64} {n : Word16} (hpos : 0 < n.toNat) (hmax : n.toNat ≤ 255) :
    ((d.programmed lba n).command 0x20#8).phase = pioInAt lba.toNat n.toNat 0 ∧
      ((d.programmed lba n).command 0x20#8).disk = d.disk := by
  refine ⟨?_, command_disk _ _⟩
  show DevPhase.pioIn (d.programmed lba n).lba (d.programmed lba n).count 0 = _
  rw [programmed_lba, programmed_count d lba hpos hmax]
  rfl

/-! ### The bytes of READ's words -/

/-- A word moves the byte at its index, the one after it, or both (R168). -/
theorem idx_of_mem_movedIndices {idx : Int} {l i : Nat} (hi : i ∈ movedIndices idx l) :
    (i : Int) = idx ∨ (i : Int) = idx + 1 := by
  cases hc : wordClass idx l with
  | straddleLow =>
    have hidx : idx = -1 := wordClass_eq_iff.1 hc
    rw [movedIndices_of_straddleLow hc, List.mem_singleton] at hi
    omega
  | before => rw [movedIndices_of_before hc] at hi; cases hi
  | inside =>
    obtain ⟨hlow, -⟩ := wordClass_eq_iff.1 hc
    rw [movedIndices_of_inside hc, List.mem_pair] at hi
    omega
  | straddleHigh =>
    obtain ⟨hlow, -⟩ := wordClass_eq_iff.1 hc
    rw [movedIndices_of_straddleHigh hc, List.mem_singleton] at hi
    omega
  | after => rw [movedIndices_of_after hc] at hi; cases hi

/-- The byte a word of the stream gives to buffer index `i` is the disk's byte at `p + i` (R53, R55, R183). -/
theorem byteFor_diskWord {p n i : Nat} (disk : Memory)
    (hi : (i : Int) = 2 * n - (p % 512 : Nat) ∨ (i : Int) = 2 * n - (p % 512 : Nat) + 1) :
    byteFor (2 * n - (p % 512 : Nat)) i (diskWord disk (BitVec.ofNat 28 (p / 512 + n / 256)) (n % 256)) =
      disk.get ((p + i) % 2 ^ 37) := by
  rcases hi with hlow | hhigh
  · rw [byteFor_low hlow, diskWord, loByte_joinBytes, diskPos, BitVec.toNat_ofNat, Config.sectorBytes]
    congr 1
    omega
  · rw [byteFor_high hhigh, diskWord, hiByte_joinBytes, diskPos, BitVec.toNat_ofNat, Config.sectorBytes]
    congr 1
    omega

/-- Caller memory `m` is `m₀` with the first `k` bytes of the buffer read off the disk from position `p` on (R203). -/
def ReadFrom (disk : Memory) (p buf k : Nat) (m₀ m : Memory) : Prop :=
  (∀ i, i < k → m.get (buf + i) = disk.get ((p + i) % 2 ^ 37)) ∧ ∀ a, (∀ i, i < k → a ≠ buf + i) → m.get a = m₀.get a

/-- The bytes of one more word are its moved bytes and those of the words in front of it (R168). -/
theorem lt_bytesBefore_succ {off l n i : Nat} (hl : 0 < l) :
    i < bytesBefore off l (n + 1) ↔ i < bytesBefore off l n ∨ i ∈ movedIndices (2 * n - off) l := by
  rw [← List.mem_range, range_bytesBefore_succ off n hl, List.mem_append, List.mem_range]

/-- The scatter of word `n` of the stream reads its bytes off the disk (R202, R203). -/
theorem ReadFrom.scatter {disk m₀ m m' : Memory} {p buf l n : Nat} (hl : 0 < l) (hm : m.wf = true)
    (h : ReadFrom disk p buf (bytesBefore (p % 512) l n) m₀ m)
    (hs : scatter buf (2 * n - (p % 512 : Nat)) l (diskWord disk (BitVec.ofNat 28 (p / 512 + n / 256)) (n % 256)) m =
      some m') :
    ReadFrom disk p buf (bytesBefore (p % 512) l (n + 1)) m₀ m' := by
  obtain ⟨hread, hkept⟩ := h
  refine ⟨fun i hi => ?_, fun a ha => ?_⟩
  · by_cases hmoved : i ∈ movedIndices (2 * n - (p % 512 : Nat)) l
    · rw [scatter_get_of_moved hs hm hmoved, byteFor_diskWord disk (idx_of_mem_movedIndices hmoved)]
    · have hother : ∀ j ∈ movedIndices (2 * n - (p % 512 : Nat)) l, buf + i ≠ buf + j := fun j hj hij =>
        hmoved (Nat.add_left_cancel hij ▸ hj)
      rw [scatter_get_of_not_moved hs hm hother]
      exact hread i (((lt_bytesBefore_succ hl).1 hi).resolve_right hmoved)
  · rw [scatter_get_of_not_moved hs hm fun i hi => ha i ((lt_bytesBefore_succ hl).2 (.inr hi))]
    exact hkept a fun i hi => ha i ((lt_bytesBefore_succ hl).2 (.inl hi))

/-! ### The data phase of READ -/

/-- READ of the operands in `s` stands at stage `p` of its leg, at the reference device with the disk of `d`: the first
`n` words of its sectors have been read and their bytes are in the buffer (R201, R203). -/
structure State.ReadingAt (s : State) (d : RefDevice) (p : Stage) (n : Nat) (t : State) : Prop where
  inv : t.Inv
  queue : t.callerQueue = []
  seq : t.seq = .run (.leg .read p)
  pos : t.pos = s.pos
  buf : t.tBuf = s.arg0
  len : t.tL = s.arg1
  word : 256 * t.loopS.toNat + t.loopW.toNat = n
  device : ∃ e, t.device = .present e ∧ e.disk = d.disk ∧
    e.phase = pioInAt (s.pos.toNat / 512) (requiredSectors s.pos.toNat s.arg1.toNat) n
  bytes : ReadFrom d.disk s.pos.toNat s.arg0.toNat (bytesBefore (s.pos.toNat % 512) s.arg1.toNat n) s.mem t.mem

/-- The transfer registers of the READ in its leg (R30). -/
theorem State.ReadingAt.transferOk {p : Stage} {n : Nat} (h : s.ReadingAt d p n t) : t.TransferOk :=
  (running_facts h.inv h.seq).2.2.2.1.2.1

/-- T_SECT is the required sector count (R30). -/
theorem State.ReadingAt.tSect_eq {p : Stage} {n : Nat} (h : s.ReadingAt d p n t) :
    t.tSect.toNat = requiredSectors s.pos.toNat s.arg1.toNat := by
  rw [h.transferOk.sectors, h.pos, h.len]

/-- At the data point word `n` is one of the transfer's, and the loop variables are its sector and its place there
(R31, R201). -/
theorem State.ReadingAt.loops {n : Nat} (h : s.ReadingAt d .xfer n t) :
    n < 256 * requiredSectors s.pos.toNat s.arg1.toNat ∧ t.loopS.toNat = n / 256 ∧ t.loopW.toNat = n % 256 := by
  obtain ⟨-, -, -, ⟨-, -, ⟨hw, hsec⟩, -⟩, -⟩ := running_facts h.inv h.seq
  have hsec : t.loopS.toNat < t.tSect.toNat := hsec
  have hword := h.word
  rw [h.tSect_eq] at hsec
  omega

/-- The index of word `n` (R166). -/
theorem State.ReadingAt.wordIdx_eq {n : Nat} (h : s.ReadingAt d .xfer n t) :
    t.wordIdx = 2 * n - (s.pos.toNat % 512 : Nat) := by
  obtain ⟨-, hS, hW⟩ := h.loops
  rw [State.wordIdx, h.transferOk.off, h.pos, hS, hW, wordIndex_div_mod]

/-- `waitReady` ends at once, because the device is in its read phase (R76, R181). -/
theorem State.ReadingAt.waitReady {n : Nat} (h : s.ReadingAt d .wrBsy n t) :
    ∃ u, steps 2 t = .next u ∧ s.ReadingAt d .xfer n u := by
  obtain ⟨e, hd, hdisk, hphase⟩ := h.device
  obtain ⟨u, hrun, hseq, hdev, hports⟩ := steps_waitReady h.queue hd h.seq (dataReady_of_pioInAt hphase)
  have hinv := inv_steps h.inv hrun
  rw [hports] at hinv hrun
  exact ⟨_, hrun, hinv, h.queue, hseq, h.pos, h.buf, h.len, h.word, ⟨e, hdev, hdisk, hphase⟩, h.bytes⟩

/-- The step of word `n` puts its bytes in the buffer and takes the device one word on; the loop variables or the
completion follow (R76, R201, R202). -/
theorem State.ReadingAt.step_word {n : Nat} (h : s.ReadingAt d .xfer n t) :
    ∃ m e, step t = .next (nextWord .read endOfRead (setMem m (portIn16 t).2)) ∧
      (portIn16 t).2.device = .present e ∧ e.disk = d.disk ∧
      e.phase = (if n + 1 < 256 * requiredSectors s.pos.toNat s.arg1.toNat then
        pioInAt (s.pos.toNat / 512) (requiredSectors s.pos.toNat s.arg1.toNat) (n + 1) else .idle) ∧
      ReadFrom d.disk s.pos.toNat s.arg0.toNat (bytesBefore (s.pos.toNat % 512) s.arg1.toNat (n + 1)) s.mem m := by
  obtain ⟨e, hd, hdisk, hphase⟩ := h.device
  obtain ⟨m, hm, hstep⟩ := step_readWord h.inv h.queue h.seq
  have hin := in16_of_pioInAt hd hphase h.loops.1
  have hlen : 0 < s.arg1.toNat := h.len ▸ h.transferOk.nonempty
  rw [hin, h.wordIdx_eq, h.buf, h.len, hdisk] at hm
  exact ⟨m, _, hstep, congrArg Prod.snd hin, hdisk, rfl, h.bytes.scatter hlen h.inv.memWf hm⟩

/-- Before a sector's last word comes the next word (R201). -/
theorem State.ReadingAt.next_word {n : Nat} (h : s.ReadingAt d .xfer n t) (hw : n % 256 < 255) :
    ∃ u, steps 1 t = .next u ∧ s.ReadingAt d .xfer (n + 1) u := by
  obtain ⟨hn, -, hW⟩ := h.loops
  have hword := h.word
  obtain ⟨m, e, hstep, hdev, hdisk, hphase, hbytes⟩ := h.step_word
  rw [nextWord_of_lt (hW ▸ hw)] at hstep
  rw [if_pos (by omega)] at hphase
  have hcount : 256 * t.loopS.toNat + (t.loopW + 1#9).toNat = n + 1 := by rw [toNat_add9 (by omega)]; omega
  exact ⟨_, steps_one hstep, stepKeepsLegalStates _ _ h.inv hstep, h.queue, h.seq, h.pos, h.buf, h.len, hcount,
    ⟨e, hdev, hdisk, hphase⟩, hbytes⟩

/-- After a sector's last word comes the next sector's `waitReady`, then its first word (R201; log entry 6). -/
theorem State.ReadingAt.next_sector {n : Nat} (h : s.ReadingAt d .xfer n t) (hw : n % 256 = 255)
    (hmore : n + 1 < 256 * requiredSectors s.pos.toNat s.arg1.toNat) :
    ∃ u, steps 3 t = .next u ∧ s.ReadingAt d .xfer (n + 1) u := by
  obtain ⟨-, hS, hW⟩ := h.loops
  have hsect := h.tSect_eq
  have hmax := h.transferOk.sectorsMax
  obtain ⟨m, e, hstep, hdev, hdisk, hphase, hbytes⟩ := h.step_word
  have hsec : t.loopS.toNat + 1 < t.tSect.toNat := by omega
  rw [nextWord_of_more_sectors (s := setMem m (portIn16 t).2) (hW.trans hw) hsec] at hstep
  rw [if_pos hmore] at hphase
  have hcount : 256 * (t.loopS + 1#16).toNat + 0 = n + 1 := by rw [toNat_add16 (by omega)]; omega
  have hwait : s.ReadingAt d .wrBsy (n + 1) (goPoint (.leg .read .wrBsy) (bumpSector (setMem m (portIn16 t).2))) :=
    ⟨stepKeepsLegalStates _ _ h.inv hstep, h.queue, rfl, h.pos, h.buf, h.len, hcount, ⟨e, hdev, hdisk, hphase⟩, hbytes⟩
  obtain ⟨u, hrun, hu⟩ := hwait.waitReady
  exact ⟨u, steps_trans (steps_one hstep) hrun, hu⟩

/-- From the first `waitReady` to word `n`: one step for each word in front of it and two for each `waitReady` up to its
sector's, by induction on `n` (R181, R201). -/
theorem State.ReadingAt.reaches_word (h : s.ReadingAt d .wrBsy 0 t) {n : Nat}
    (hn : n < 256 * requiredSectors s.pos.toNat s.arg1.toNat) :
    ∃ u, steps (n + 2 * (n / 256) + 2) t = .next u ∧ s.ReadingAt d .xfer n u := by
  induction n with
  | zero => exact h.waitReady
  | succ n ih =>
    obtain ⟨v, hrun, hv⟩ := ih (by omega)
    rcases Nat.lt_or_ge (n % 256) 255 with hw | hw
    · obtain ⟨u, hword, hu⟩ := hv.next_word hw
      rw [show n + 1 + 2 * ((n + 1) / 256) + 2 = n + 2 * (n / 256) + 2 + 1 by omega]
      exact ⟨u, steps_trans hrun hword, hu⟩
    · obtain ⟨u, hsector, hu⟩ := hv.next_sector (by omega) hn
      rw [show n + 1 + 2 * ((n + 1) / 256) + 2 = n + 2 * (n / 256) + 2 + 3 by omega]
      exact ⟨u, steps_trans hrun hsector, hu⟩

/-- USTAT after READ's completion: a handle, no fault, OK (R24, R200, R257). -/
theorem endOfRead_ustat (hinit : s.inited = true) (hfault : s.faultFlag = false) : (endOfRead s).ustat = 0x0002#16 := by
  show ustatOf false s.inited s.faultFlag ResultCode.ok.code = _
  rw [hinit, hfault]
  rfl

/-- The step of the last word completes READ with the whole buffer read (R163, R200). -/
theorem State.ReadingAt.last_word {n : Nat} (h : s.ReadingAt d .xfer n t)
    (hlast : n + 1 = 256 * requiredSectors s.pos.toNat s.arg1.toNat) :
    ∃ u, steps 1 t = .next u ∧ u.seq = .idle ∧ u.pos = s.pos + s.arg1 ∧ u.result = s.arg1 ∧ u.ustat = 0x0002#16 ∧
      (∃ e, u.device = .present e ∧ e.disk = d.disk ∧ e.phase = .idle) ∧
      ReadFrom d.disk s.pos.toNat s.arg0.toNat s.arg1.toNat s.mem u.mem := by
  obtain ⟨-, hS, hW⟩ := h.loops
  obtain ⟨-, hfault, hinit, -, -⟩ := running_facts h.inv h.seq
  have hsect := h.tSect_eq
  obtain ⟨m, e, hstep, hdev, hdisk, hphase, hbytes⟩ := h.step_word
  have hw : t.loopW.toNat = 255 := by omega
  have hsec : t.loopS.toNat + 1 = t.tSect.toNat := by omega
  rw [nextWord_of_last (s := setMem m (portIn16 t).2) hw hsec] at hstep
  rw [if_neg (by omega)] at hphase
  rw [hlast, bytesBefore_requiredSectors _ (h.len ▸ h.transferOk.nonempty)] at hbytes
  have hpos : t.pos + t.tL = s.pos + s.arg1 := by rw [h.pos, h.len]
  exact ⟨_, steps_one hstep, rfl, hpos, h.len, endOfRead_ustat (s := setMem m (portIn16 t).2) hinit hfault,
    ⟨e, hdev, hdisk, hphase⟩, hbytes⟩

/-! ### The whole READ -/

/-- A transfer command at its point in a run is one step (R184). -/
theorem step_legCommand {l : Leg} (hq : s.callerQueue = []) (hs : s.seq = .run (.leg l .cmd)) :
    step s = .next (goPoint (.leg l .wrBsy) (zeroLoops (issue l.command s))) :=
  (step_at hq hs).trans (exec_legCommand_of_cmd hs)

/-- The step that takes an accepted READ word off the queue (R39, R200). -/
theorem step_of_readWord {rest : List CallerMove} (h : s.Inv) (hs : s.seq = .idle)
    (hq : s.callerQueue = .writeReq 0x05#8 :: rest) (hl : 0 < s.arg1.toNat) (hfit : s.TransferFits) :
    step s = .next (goPoint (.leg .read .bw) (latchTransfer .read (accepted .read (setQueue rest s)))) :=
  have hready : (setQueue rest s).Ready := ⟨hs, (inv_setQueue h rest).status⟩
  have hfit' : (setQueue rest s).TransferFits := ⟨hfit.endsInRange, hfit.bufferInRange, hfit.sectorsMax⟩
  calc step s
      = writeReq 0x05#8 (setQueue rest s) := step_of_callerQueue_cons hq
    _ = exec .read (setQueue rest s) := writeReq_of_decode (decodeRequest_encode (i := .read) rfl) _
    _ = _ := execRead_of_length hready hfit' hl

/-- Before its first word READ has moved nothing (R168). -/
theorem ReadFrom.start {disk m₀ m : Memory} {p buf off l : Nat} (h : ∀ a, m.get a = m₀.get a) :
    ReadFrom disk p buf (bytesBefore off l 0) m₀ m := by
  have hnone : bytesBefore off l 0 = 0 := by rw [bytesBefore]; omega
  rw [hnone]
  exact ⟨nofun, fun a _ => h a⟩

/-- From READ's busy-wait to the first sector's `waitReady`: the programming and the command are seven steps, after
which the device stands at the first sector of the cursor (R182, R184, R188). -/
theorem steps_programRead (h : t.Inv) (hq : t.callerQueue = []) (hd : t.device = .present d)
    (hs : t.seq = .run (.leg .read .bw)) (hpos : t.pos = s.pos) (hbuf : t.tBuf = s.arg0) (hlen : t.tL = s.arg1)
    (hmem : t.mem = s.mem) : ∃ u, steps 7 t = .next u ∧ s.ReadingAt d .wrBsy 0 u := by
  obtain ⟨-, -, -, ⟨-, hok, -, -⟩, -⟩ := running_facts h hs
  obtain ⟨c, hprogram, hcmd, hdev, hports⟩ := steps_beginTransfer hq hd hs
  have hrun := steps_trans hprogram (steps_one (step_legCommand (hports.callerQueue.trans hq) hcmd))
  have hinv := inv_steps h hrun
  obtain ⟨hphase, hdisk⟩ :=
    programmed_readSectors (d := d) (lba := t.tLba) (hok.legCount_pos .read) (hok.legCount_le .read)
  have hstream : (t.legCount .read).toNat = requiredSectors s.pos.toNat s.arg1.toNat := by
    rw [← hpos, ← hlen]; exact hok.sectors
  rw [hok.lba, hstream, hpos] at hphase
  have hissued : (issue .readSectors c).device =
      .present ((d.programmed t.tLba (t.legCount .read)).command 0x20#8) := by
    show c.device.out8 .statCmd 0x20#8 = _
    rw [hdev]
    rfl
  rw [hports] at hinv hrun
  exact ⟨_, hrun, hinv, hq, rfl, hpos, hbuf, hlen, rfl, ⟨_, hissued, hdisk, hphase⟩,
    .start fun a => congrArg (·.get a) hmem⟩

/-- Settles O57: one step accepts READ and seven program it; then every word of the transfer's sectors lands in the
buffer, and the step of the last one completes. -/
theorem readReturnsDeviceBytes : Obligations.ReadReturnsDeviceBytes := by
  intro s d h hs hq hd _ hl hfit
  have haccept := step_of_readWord h hs hq hl hfit
  obtain ⟨start, hprogram, hstart⟩ :=
    steps_programRead (s := s) (stepKeepsLegalStates _ _ h haccept) rfl hd rfl rfl rfl rfl rfl
  have hsectors := requiredSectors_pos s.pos.toNat hl
  obtain ⟨last, hwords, hlast⟩ :=
    hstart.reaches_word (n := 256 * requiredSectors s.pos.toNat s.arg1.toNat - 1) (by omega)
  obtain ⟨t, hend, hseq, hpos, hresult, hustat, hdevice, hread, hkept⟩ := hlast.last_word (by omega)
  have hrun := steps_trans (steps_trans (steps_trans (steps_one haccept) hprogram) hwords) hend
  refine ⟨t, ?run, hseq, hpos, hresult, hustat, hdevice, hread, fun a ha => hkept a fun i hi => by omega⟩
  case run =>
    rw [← hrun]
    congr 1
    omega

end Sys2Proof.Machine
end

section
/-! PROOFS. The write path's steps (R220 to R226): WRITE accepted, and a data word merged by its class and pushed. -/

namespace Sys2Proof.Machine

variable {s t : State}

/-! ### WRITE accepted -/

/-- WRITE of at least one byte goes to its first point (R220). -/
theorem writeBody_of_length (hl : 0 < s.arg1.toNat) :
    writeBody s = goPoint (firstWritePoint (latchWrite s)) (latchWrite s) :=
  if_neg fun hzero => hl.ne' (congrArg BitVec.toNat hzero)

/-- The state in which an accepted WRITE of at least one byte begins (R39, R220). -/
def State.writeBegun (s : State) : State :=
  goPoint (firstWritePoint (latchWrite (accepted .write s))) (latchWrite (accepted .write s))

/-- A WRITE whose operands fit, of at least one byte, is accepted and begins (R39, R220). -/
theorem execWrite_of_length (h : s.Ready) (hfit : s.TransferFits) (hl : 0 < s.arg1.toNat) :
    exec .write s = .next s.writeBegun :=
  (execWrite_of_ready h hfit).trans (congrArg _ (writeBody_of_length hl))

/-- Whether the operands fit depends on POS, ARG0 and ARG1 only (R256). -/
theorem State.TransferFits.congr (h : s.TransferFits) (hpos : t.pos = s.pos) (h0 : t.arg0 = s.arg0)
    (h1 : t.arg1 = s.arg1) : t.TransferFits := by
  obtain ⟨hend, hbuf, hsect⟩ := h
  constructor <;> simp only [hpos, h0, h1] <;> assumption

/-- What WRITE latches is a legal transfer (R30). -/
theorem writeBegun_ok (hfit : s.TransferFits) (hl : 0 < s.arg1.toNat) : s.writeBegun.TransferOk :=
  have hfit' : (accepted .write s).TransferFits := hfit.congr rfl rfl rfl
  (latchTransfer_ok .write hl hfit'.endsInRange hfit'.bufferInRange hfit'.sectorsMax).congr rfl rfl rfl rfl rfl rfl rfl

/-- The leg that follows the start snapshot (R222). -/
theorem afterStartSnap_eq (h : s.TransferOk) :
    afterStartSnap s = .leg (if (s.pos.toNat + s.tL.toNat) % 512 ≠ 0 then .snapEnd else .write) .bw := by
  rw [afterStartSnap, h.endPos]
  split_ifs <;> rfl

/-- The leg WRITE begins with (R220, R221). -/
theorem firstWritePoint_eq (h : s.TransferOk) :
    firstWritePoint s = .leg (if s.pos.toNat % 512 ≠ 0 then .snapStart
      else if (s.pos.toNat + s.tL.toNat) % 512 ≠ 0 then .snapEnd else .write) .bw := by
  have hoff : s.tOff ≠ 0#9 ↔ s.pos.toNat % 512 ≠ 0 := by rw [← h.off, ne_eq, BitVec.toNat_eq]; rfl
  rw [firstWritePoint, afterStartSnap_eq h]
  simp only [hoff]
  split_ifs <;> rfl

/-- Settles O23: acceptance sets BUSY and REQ, the latching writes the registers of R30 and clears the flags, and nothing
else changes but SEQ. -/
theorem writeAccepted : Obligations.WriteAccepted := by
  intro s hready hfit hl
  have hfault : s.faultFlag = false := by rw [hready.status.fault, hready.seq]; rfl
  have hustat : ustatOf true s.inited s.faultFlag s.err = ustatOf true true false s.err := by
    rw [hready.accepts.2.2, hfault]
  have hpoint := firstWritePoint_eq (writeBegun_ok hfit hl)
  exact ⟨_, execWrite_of_length hready hfit hl, congrArg Seq.run hpoint, hustat, rfl, rfl, rfl, rfl, rfl, rfl, rfl,
    ⟨rfl, rfl⟩, ⟨rfl, rfl⟩, ⟨rfl, rfl⟩, ⟨rfl, rfl⟩, fun _ => rfl, ⟨rfl, rfl⟩⟩

/-! ### The merge of a data word -/

/-- The word R225 makes of the buffer and the snapshots for the word the machine is at, by its class. -/
def State.Merges (s : State) (v : Word16) : Prop :=
  match s.wordCls with
  | .straddleLow => ∃ e, s.startSnap[s.loopW.toNat]? = some (some e) ∧ v = joinBytes (s.mem.get s.tBuf.toNat) (loByte e)
  | .before => s.startSnap[s.loopW.toNat]? = some (some v)
  | .inside =>
    v = joinBytes (s.mem.get (s.tBuf.toNat + s.wordIdx.toNat + 1)) (s.mem.get (s.tBuf.toNat + s.wordIdx.toNat))
  | .straddleHigh => ∃ e, s.endSnap[s.loopW.toNat]? = some (some e) ∧
      v = joinBytes (hiByte e) (s.mem.get (s.tBuf.toNat + s.wordIdx.toNat))
  | .after => s.endSnap[s.loopW.toNat]? = some (some v)

/-- Every byte of the buffer of a legal transfer is one of caller memory (R51, R256). -/
theorem bufferByte_of_lt {i : Nat} (h : s.TransferOk) (hi : i < s.tL.toNat) :
    bufferByte s i = .ok (s.mem.get (s.tBuf.toNat + i)) := by
  have hbuf := h.bufferInRange
  have hmem : s.tBuf.toNat + i < Config.memBytes := by simp only [Config.memBytes]; omega
  rw [bufferByte, memRead_eq_some.2 ⟨hmem, rfl⟩]

/-- At WRITE's data point the merge has START_SNAP's word for every word that begins before the buffer (R167). -/
theorem startWord_of_inv (h : s.Inv) (hs : s.seq = .run (.leg .write .xfer))
    (hc : s.wordCls = .straddleLow ∨ s.wordCls = .before) : ∃ v, startWord s = .ok v := by
  obtain ⟨-, -, ⟨hw, -⟩, hstart, -⟩ := (running_facts h hs).2.2.2.1
  have hoff : s.tOff.toNat ≠ 0 := off_ne_zero_of_wordIndex_neg (idx_neg_of_wordClass hc)
  have hhave : s.haveStart = true := by rw [hstart, decide_eq_true hoff]
  exact startWord_of_full hhave (h.startFull hhave) hw

/-- At WRITE's data point the merge has END_SNAP's word for every word that ends past the buffer (R167). -/
theorem endWord_of_inv (h : s.Inv) (hs : s.seq = .run (.leg .write .xfer))
    (hc : s.wordCls = .straddleHigh ∨ s.wordCls = .after) : ∃ v, endWord s = .ok v := by
  obtain ⟨-, hok, ⟨hw, hsec⟩, -, hend⟩ := (running_facts h hs).2.2.2.1
  have hhave : s.haveEnd = true := by rw [hend, decide_eq_true (tEnd_unaligned_of_wordClass hok hw hsec hc)]
  exact endWord_of_full hhave (h.endFull hhave) hw

/-- From a legal state the merge of WRITE's data word has all it reads, and gives the word of R225. -/
theorem mergeWord_of_inv (h : s.Inv) (hs : s.seq = .run (.leg .write .xfer)) :
    ∃ v, mergeWord s = .ok v ∧ s.Merges v := by
  obtain ⟨-, hok, -, -⟩ := (running_facts h hs).2.2.2.1
  unfold mergeWord State.Merges
  cases hc : s.wordCls with
  | straddleLow =>
    obtain ⟨e, he⟩ := startWord_of_inv h hs (.inl hc)
    rw [he, bufferByte_of_lt hok hok.nonempty]
    exact ⟨_, rfl, e, startWord_ok he, rfl⟩
  | before =>
    obtain ⟨e, he⟩ := startWord_of_inv h hs (.inr hc)
    exact ⟨e, he, startWord_ok he⟩
  | inside =>
    obtain ⟨hlow, hhigh⟩ := wordClass_eq_iff.1 hc
    rw [bufferByte_of_lt hok (show s.wordIdx.toNat < s.tL.toNat by omega),
      bufferByte_of_lt hok (show s.wordIdx.toNat + 1 < s.tL.toNat by omega)]
    exact ⟨_, rfl, rfl⟩
  | straddleHigh =>
    obtain ⟨hlow, hlast, -⟩ := wordClass_eq_iff.1 hc
    obtain ⟨e, he⟩ := endWord_of_inv h hs (.inl hc)
    rw [he, bufferByte_of_lt hok (show s.wordIdx.toNat < s.tL.toNat by omega)]
    exact ⟨_, rfl, e, endWord_ok he, rfl⟩
  | after =>
    obtain ⟨e, he⟩ := endWord_of_inv h hs (.inr hc)
    exact ⟨e, he, endWord_ok he⟩

/-! ### WRITE's data word -/

/-- From a legal state the step of WRITE's data word pushes the merged word and goes on (R224). -/
theorem step_writeWord (h : s.Inv) (hq : s.callerQueue = []) (hs : s.seq = .run (.leg .write .xfer)) :
    ∃ v, s.Merges v ∧ step s = .next (nextWord .write (goPoint .flBsy) (portOut16 v s)) := by
  obtain ⟨v, hv, hmerges⟩ := mergeWord_of_inv h hs
  refine ⟨v, hmerges, (step_at hq hs).trans ?_⟩
  show writeWordStep s = _
  rw [writeWordStep, hv]

/-- After WRITE's data word only the loop variables and SEQ go on (R224, R226). -/
theorem nextWord_flBsy_onlyLoops (s : State) : nextWord .write (goPoint .flBsy) s =
    { s with
      loopS := (nextWord .write (goPoint .flBsy) s).loopS
      loopW := (nextWord .write (goPoint .flBsy) s).loopW
      seq := (nextWord .write (goPoint .flBsy) s).seq } := by
  rcases nextWord_cases .write (goPoint .flBsy) s with e | e | e <;> rw [e] <;> rfl

/-- A data write is one transaction, at CMD_BASE (R110, R116). -/
theorem portOut16_oneTransaction (v : Word16) (s : State) : s.oneTransaction (.out16 s.cmdBase v) (portOut16 v s) :=
  congrArg (PortTx.out16 · v :: s.trace) (portAddr_data s)

/-- Settles O40: the step pushes the word of R225, after which only the loop variables and SEQ move. -/
theorem mergedWordPushed : Obligations.MergedWordPushed := by
  intro s h hq hs
  obtain ⟨v, hmerges, hstep⟩ := step_writeWord h hq hs
  refine ⟨_, v, hstep, ?_⟩
  rw [nextWord_flBsy_onlyLoops (portOut16 v s)]
  exact ⟨portOut16_oneTransaction v s, rfl, hmerges, ⟨rfl, rfl, rfl, rfl⟩, ⟨rfl, rfl⟩, ⟨rfl, rfl⟩,
    ⟨rfl, rfl, rfl, rfl, rfl, rfl, rfl⟩, ⟨rfl, rfl, rfl, rfl, rfl⟩, fun _ => rfl⟩

end Sys2Proof.Machine
end

section
/-! PROOFS. The bytes of a WRITE at the reference device (R227): the write stream, the bytes that are to stand in it, and
the two bytes of a merged word. -/

namespace Sys2Proof.Machine

variable {s t u : State} {d e : RefDevice}

/-! ### The write stream of the reference device -/

/-- The device is in a write of `r` sectors from sector `q` on, `n` words in (R75). -/
def pioOutAt (q r n : Nat) : DevPhase := .pioOut (streamAt q r n).1 (streamAt q r n).2.1 (streamAt q r n).2.2

/-- A data write takes the device to the next word, the last one to its idle phase (R77). -/
theorem pioOutNext_streamAt {q r n : Nat} (hn : n < 256 * r) :
    pioOutNext (streamAt q r n).1 (streamAt q r n).2.1 (streamAt q r n).2.2 =
      if n + 1 < 256 * r then pioOutAt q r (n + 1) else .idle := by
  rw [pioOutNext, streamNext_streamAt hn]
  split_ifs <;> rfl

/-- A data write in a write phase replaces the word of the disk there (R76). -/
theorem out16_of_pioOutAt {q r n : Nat} (hp : d.phase = pioOutAt q r n) (hn : n < 256 * r) (v : Word16) :
    d.out16 v = { d with
      disk := setDiskWord d.disk (BitVec.ofNat 28 (q + n / 256)) (n % 256) v
      phase := if n + 1 < 256 * r then pioOutAt q r (n + 1) else .idle } := by
  rw [← pioOutNext_streamAt hn, RefDevice.out16, hp]
  rfl

/-- In a write phase the device shows DRQ (R76, R93). -/
theorem dataReady_of_pioOutAt {q r n : Nat} (hp : d.phase = pioOutAt q r n) : dataReady d.status = true := by
  have hstatus : d.status = 0x08#8 := by rw [RefDevice.status, hp]; rfl
  rw [hstatus]
  rfl

/-- WRITE SECTORS starts a write of the programmed sectors (R76, R184). -/
theorem programmed_writeSectors {lba : Word64} {n : Word16} (hpos : 0 < n.toNat) (hmax : n.toNat ≤ 255) :
    ((d.programmed lba n).command 0x30#8).phase = pioOutAt lba.toNat n.toNat 0 := by
  show DevPhase.pioOut (d.programmed lba n).lba (d.programmed lba n).count 0 = _
  rw [programmed_lba, programmed_count d lba hpos hmax]
  rfl

/-! ### The bytes of the write stream -/

/-- The device position of byte `k` of the sectors from the cursor's on; an LBA has 28 bits on the wire (R55, R183). -/
def streamPos (p k : Nat) : Nat := (512 * (p / 512) + k) % 2 ^ 37

/-- A byte of the transfer stands behind the cursor's offset (R160). -/
theorem streamPos_off_add (p i : Nat) : streamPos p (p % 512 + i) = (p + i) % 2 ^ 37 := by
  rw [streamPos, ← Nat.add_assoc, Nat.div_add_mod]

/-! Word `n` of the stream has the bytes `2 * n` and `2 * n + 1` (R53). -/

theorem diskPos_stream_low (p n : Nat) :
    diskPos (BitVec.ofNat 28 (p / 512 + n / 256)) (2 * (n % 256)) = streamPos p (2 * n) := by
  rw [diskPos, streamPos, BitVec.toNat_ofNat, Config.sectorBytes]
  omega

theorem diskPos_stream_high (p n : Nat) :
    diskPos (BitVec.ofNat 28 (p / 512 + n / 256)) (2 * (n % 256) + 1) = streamPos p (2 * n + 1) := by
  rw [diskPos, streamPos, BitVec.toNat_ofNat, Config.sectorBytes]
  omega

/-- No position comes twice in a stream of at most 256 sectors (R75). -/
theorem streamPos_inj {p j k : Nat} (hj : j < 512 * 256) (hk : k < 512 * 256) (h : streamPos p j = streamPos p k) :
    j = k := by
  unfold streamPos at h
  omega

/-- The two bytes of a word of the stream, as the disk has them (R53, R76). -/
theorem diskWord_stream (disk : Memory) (p n : Nat) :
    loByte (diskWord disk (BitVec.ofNat 28 (p / 512 + n / 256)) (n % 256)) = disk.get (streamPos p (2 * n)) ∧
      hiByte (diskWord disk (BitVec.ofNat 28 (p / 512 + n / 256)) (n % 256)) = disk.get (streamPos p (2 * n + 1)) := by
  rw [diskWord, loByte_joinBytes, hiByte_joinBytes, diskPos_stream_low, diskPos_stream_high]
  exact ⟨rfl, rfl⟩

/-- The disk's bytes after word `n` of the stream is replaced (R76). -/
theorem setDiskWord_stream_get {disk : Memory} (hdisk : disk.wf = true) (p n a : Nat) (v : Word16) :
    (setDiskWord disk (BitVec.ofNat 28 (p / 512 + n / 256)) (n % 256) v).get a =
      if a = streamPos p (2 * n + 1) then hiByte v else if a = streamPos p (2 * n) then loByte v else disk.get a := by
  rw [setDiskWord, Memory.get_set _ (Memory.wf_set _ hdisk _ _), Memory.get_set _ hdisk, diskPos_stream_low,
    diskPos_stream_high]

/-- The byte that WRITE leaves at byte `k` of its sectors: the buffer's in the transfer, the disk's in front of it and
behind it (R227). -/
def streamByte (mem disk : Memory) (p buf l k : Nat) : Byte :=
  if p % 512 ≤ k ∧ k < p % 512 + l then mem.get (buf + (k - p % 512)) else disk.get (streamPos p k)

theorem streamByte_of_buffer {mem disk : Memory} {p buf l k i : Nat} (hk : k = p % 512 + i) (hi : i < l) :
    streamByte mem disk p buf l k = mem.get (buf + i) := by
  rw [streamByte, if_pos (by omega), hk, Nat.add_sub_cancel_left]

theorem streamByte_of_disk {mem disk : Memory} {p buf l k : Nat} (hk : k < p % 512 ∨ p % 512 + l ≤ k) :
    streamByte mem disk p buf l k = disk.get (streamPos p k) :=
  if_neg (by omega)

/-- The disk after the first `k` bytes of WRITE's sectors, `disk₀` the disk before them. -/
def WrittenTo (mem disk₀ : Memory) (p buf l k : Nat) (disk : Memory) : Prop :=
  (∀ j, j < k → disk.get (streamPos p j) = streamByte mem disk₀ p buf l j) ∧
    ∀ a, (∀ j, j < k → a ≠ streamPos p j) → disk.get a = disk₀.get a

/-- Word `n` pushed is two more bytes written (R76, R224). -/
theorem WrittenTo.push {mem disk₀ disk : Memory} {p buf l n : Nat} {v : Word16} (hdisk : disk.wf = true)
    (hn : n < 256 * 256) (h : WrittenTo mem disk₀ p buf l (2 * n) disk)
    (hlo : loByte v = streamByte mem disk₀ p buf l (2 * n))
    (hhi : hiByte v = streamByte mem disk₀ p buf l (2 * n + 1)) :
    WrittenTo mem disk₀ p buf l (2 * (n + 1))
      (setDiskWord disk (BitVec.ofNat 28 (p / 512 + n / 256)) (n % 256) v) := by
  obtain ⟨hwritten, hkept⟩ := h
  have hne : ∀ j k, j < k → k < 2 * n + 2 → streamPos p j ≠ streamPos p k := fun j k hjk hk heq =>
    hjk.ne (streamPos_inj (by omega) (by omega) heq)
  refine ⟨fun j hj => ?_, fun a ha => ?_⟩
  · rw [setDiskWord_stream_get hdisk]
    rcases (show j = 2 * n + 1 ∨ j = 2 * n ∨ j < 2 * n by omega) with rfl | rfl | hlt
    · rw [if_pos rfl, hhi]
    · rw [if_neg (hne _ _ (by omega) (by omega)), if_pos rfl, hlo]
    · rw [if_neg (hne _ _ (by omega) (by omega)), if_neg (hne _ _ hlt (by omega)), hwritten j hlt]
  · rw [setDiskWord_stream_get hdisk, if_neg (ha _ (by omega)), if_neg (ha _ (by omega))]
    exact hkept a fun j hj => ha j (by omega)

/-- With all its sectors written WRITE has put the buffer at the cursor, and every other byte is as before (R227). -/
theorem WrittenTo.all {mem disk₀ disk : Memory} {p buf l k : Nat} (h : WrittenTo mem disk₀ p buf l k disk)
    (hk : p % 512 + l ≤ k) :
    (∀ i, i < l → disk.get ((p + i) % 2 ^ 37) = mem.get (buf + i)) ∧
      ∀ a, (∀ i, i < l → a ≠ (p + i) % 2 ^ 37) → disk.get a = disk₀.get a := by
  obtain ⟨hwritten, hkept⟩ := h
  refine ⟨fun i hi => ?_, fun a ha => ?_⟩
  · rw [← streamPos_off_add, hwritten _ (by omega), streamByte_of_buffer rfl hi]
  · by_cases hin : ∃ j, j < k ∧ a = streamPos p j
    · obtain ⟨j, hj, rfl⟩ := hin
      have hout : j < p % 512 ∨ p % 512 + l ≤ j := by
        by_contra hmid
        refine ha (j - p % 512) (by omega) ?_
        rw [← streamPos_off_add]
        congr 1
        omega
      rw [hwritten j hj, streamByte_of_disk hout]
    · exact hkept a fun j hj heq => hin ⟨j, hj, heq⟩

/-! ### The bytes of a merged word -/

/-- The first `n` elements of a snapshot are those words of a sector of the disk (R204). -/
def Snapshot.Holds (a : Snapshot) (disk : Memory) (lba n : Nat) : Prop :=
  ∀ k, k < n → a[k]? = some (some (diskWord disk (BitVec.ofNat 28 lba) k))

theorem Snapshot.Holds.word_eq {a : Snapshot} {disk : Memory} {lba n k : Nat} {v : Word16} (h : a.Holds disk lba n)
    (hk : k < n) (hv : a[k]? = some (some v)) : v = diskWord disk (BitVec.ofNat 28 lba) k :=
  Option.some.inj (Option.some.inj (hv.symm.trans (h k hk)))

/-- Where the snapshots WRITE needs hold the boundary sectors, the merge gives word `n` the bytes that are to stand there
(R225, R227). -/
theorem State.Merges.bytes {v : Word16} {disk : Memory} {n : Nat} (h : t.Merges v) (hok : t.TransferOk)
    (hS : t.loopS.toNat = n / 256) (hW : t.loopW.toNat = n % 256)
    (hn : n < 256 * requiredSectors t.pos.toNat t.tL.toNat)
    (hstart : t.pos.toNat % 512 ≠ 0 → t.startSnap.Holds disk (t.pos.toNat / 512) 256)
    (hend : (t.pos.toNat + t.tL.toNat) % 512 ≠ 0 → t.endSnap.Holds disk ((t.pos.toNat + t.tL.toNat) / 512) 256) :
    loByte v = streamByte t.mem disk t.pos.toNat t.tBuf.toNat t.tL.toNat (2 * n) ∧
      hiByte v = streamByte t.mem disk t.pos.toNat t.tBuf.toNat t.tL.toNat (2 * n + 1) := by
  have hidx : t.wordIdx = 2 * n - (t.pos.toNat % 512 : Nat) := by
    rw [State.wordIdx, hok.off, hS, hW, wordIndex_div_mod]
  have hl := hok.nonempty
  obtain ⟨hlo, hhi⟩ := diskWord_stream disk t.pos.toNat n
  -- A word that begins before the buffer is one of the cursor's sector.
  have hbefore : ∀ x, t.wordIdx < 0 → t.startSnap[t.loopW.toNat]? = some (some x) →
      x = diskWord disk (BitVec.ofNat 28 (t.pos.toNat / 512 + n / 256)) (n % 256) := by
    intro x hneg hx
    rw [(hstart (by omega)).word_eq (by omega) hx, hW, show n / 256 = 0 by omega, Nat.add_zero]
  -- A word that ends past the buffer is one of the sector of the transfer's end.
  have hafter : ∀ x, (t.tL.toNat : Int) ≤ t.wordIdx + 1 → t.endSnap[t.loopW.toNat]? = some (some x) →
      x = diskWord disk (BitVec.ofNat 28 (t.pos.toNat / 512 + n / 256)) (n % 256) := by
    intro x hpast hx
    rw [requiredSectors_eq_div _ hl] at hn
    rw [(hend (by omega)).word_eq (by omega) hx, hW,
      show (t.pos.toNat + t.tL.toNat) / 512 = t.pos.toNat / 512 + n / 256 by omega]
  unfold State.Merges at h
  cases hc : t.wordCls with
  | straddleLow =>
    have hone : t.wordIdx = -1 := wordClass_eq_iff.1 hc
    rw [hc] at h
    obtain ⟨e, he, rfl⟩ := h
    obtain rfl := hbefore e (by omega) he
    rw [loByte_joinBytes, hiByte_joinBytes, hlo, streamByte_of_disk (by omega),
      streamByte_of_buffer (i := 0) (by omega) hl]
    exact ⟨rfl, rfl⟩
  | before =>
    have hlt : t.wordIdx < -1 := wordClass_eq_iff.1 hc
    rw [hc] at h
    obtain rfl := hbefore v (by omega) h
    rw [hlo, hhi, streamByte_of_disk (by omega), streamByte_of_disk (by omega)]
    exact ⟨rfl, rfl⟩
  | inside =>
    obtain ⟨hlow, hhigh⟩ := wordClass_eq_iff.1 hc
    rw [hc] at h
    obtain rfl := h
    rw [loByte_joinBytes, hiByte_joinBytes, streamByte_of_buffer (i := t.wordIdx.toNat) (by omega) (by omega),
      streamByte_of_buffer (i := t.wordIdx.toNat + 1) (by omega) (by omega)]
    exact ⟨rfl, rfl⟩
  | straddleHigh =>
    obtain ⟨hlow, hlast, hhigh⟩ := wordClass_eq_iff.1 hc
    rw [hc] at h
    obtain ⟨e, he, rfl⟩ := h
    obtain rfl := hafter e (by omega) he
    rw [loByte_joinBytes, hiByte_joinBytes, hhi, streamByte_of_buffer (i := t.wordIdx.toNat) (by omega) (by omega),
      streamByte_of_disk (by omega)]
    exact ⟨rfl, rfl⟩
  | after =>
    obtain ⟨hlow, hpast⟩ := wordClass_eq_iff.1 hc
    rw [hc] at h
    obtain rfl := hafter v (by omega) h
    rw [hlo, hhi, streamByte_of_disk (by omega), streamByte_of_disk (by omega)]
    exact ⟨rfl, rfl⟩

end Sys2Proof.Machine
end

section
/-! PROOFS. A whole WRITE against the reference device (R227): its two snapshots, its data phase word by word and its
closing flush. -/

namespace Sys2Proof.Machine

variable {s t u : State} {d e : RefDevice}

/-! ### A running request at the reference device -/

/-- A legal state that runs a request at a point of it, with no move of the caller to come and the reference device at
its ports. -/
structure State.RunsAt (t : State) (pt : Point) (e : RefDevice) : Prop where
  inv : t.Inv
  queue : t.callerQueue = []
  seq : t.seq = .run pt
  device : t.device = .present e

/-- Nothing but the device, the trace, SEQ, the loop variables, the snapshots and their flags is other than before: what
a WRITE may change until it completes. -/
def State.onlyWriting (s t : State) : Prop :=
  t = { s with
    device := t.device, trace := t.trace, seq := t.seq, loopS := t.loopS, loopW := t.loopW
    startSnap := t.startSnap, endSnap := t.endSnap, haveStart := t.haveStart, haveEnd := t.haveEnd }

theorem State.onlyWriting.trans (h : s.onlyWriting t) (h' : t.onlyWriting u) : s.onlyWriting u :=
  Eq.trans h' (congrArg (fun x : State => { x with
    device := u.device, trace := u.trace, seq := u.seq, loopS := u.loopS, loopW := u.loopW
    startSnap := u.startSnap, endSnap := u.endSnap, haveStart := u.haveStart, haveEnd := u.haveEnd }) h)

theorem State.onlyPorts.onlyWriting (h : s.onlyPorts t) : s.onlyWriting t := by
  rw [h]
  rfl

/-! The operands of the WRITE are as before, and with them what is computed from them. -/

theorem State.onlyWriting.operands (h : s.onlyWriting t) :
    t.pos = s.pos ∧ t.tBuf = s.tBuf ∧ t.tL = s.tL ∧ t.mem = s.mem := by
  rw [h]
  exact ⟨rfl, rfl, rfl, rfl⟩

theorem State.onlyWriting.transferOk (h : s.onlyWriting t) (hok : s.TransferOk) : t.TransferOk := by
  rw [h]
  exact hok.congr rfl rfl rfl rfl rfl rfl rfl

theorem State.onlyWriting.afterStartSnap (h : s.onlyWriting t) : afterStartSnap t = afterStartSnap s := by
  rw [h]
  rfl

/-- The programming and the command of a leg are seven steps, after which its first `waitReady` comes (R182, R184). -/
theorem State.RunsAt.command {l : Leg} (h : t.RunsAt (.leg l .bw) e) :
    ∃ u, steps 7 t = .next u ∧
      u.RunsAt (.leg l .wrBsy) ((e.programmed (t.legLba l) (t.legCount l)).command (encode l.command)) ∧
      u.loopS = 0#16 ∧ u.loopW = 0#9 ∧ t.sameSnaps u ∧ t.onlyWriting u := by
  obtain ⟨c, hprogram, hcmd, hdev, hports⟩ := steps_beginTransfer h.queue h.device h.seq
  have hrun := steps_trans hprogram (steps_one (step_legCommand (hports.callerQueue.trans h.queue) hcmd))
  have hinv := inv_steps h.inv hrun
  have hissued : (issue l.command c).device =
      .present ((e.programmed (t.legLba l) (t.legCount l)).command (encode l.command)) := by
    show c.device.out8 .statCmd (encode l.command) = _
    rw [hdev]
    rfl
  rw [hports] at hinv hrun
  exact ⟨_, hrun, ⟨hinv, h.queue, rfl, hissued⟩, rfl, rfl, ⟨rfl, rfl, rfl, rfl, rfl⟩, rfl⟩

/-- `waitReady` ends at once when the device is in a data phase (R76, R181). -/
theorem State.RunsAt.waitReady {l : Leg} (h : t.RunsAt (.leg l .wrBsy) e) (hready : dataReady e.status = true) :
    ∃ u, steps 2 t = .next u ∧ u.RunsAt (.leg l .xfer) e ∧ t.onlyPorts u := by
  obtain ⟨u, hrun, hseq, hdev, hports⟩ := steps_waitReady h.queue h.device h.seq hready
  exact ⟨u, hrun, ⟨inv_steps h.inv hrun, hports.callerQueue.trans h.queue, hseq, hdev⟩, hports⟩

/-! ### The snapshots -/

/-- The snapshot that a leg fills: the end snapshot's leg END_SNAP, the start snapshot's START_SNAP (R221, R222). -/
def State.snap (s : State) (l : Leg) : Snapshot := if l = .snapEnd then s.endSnap else s.startSnap

/-- The point after a snapshot (R221, R222). -/
def Leg.afterSnap (l : Leg) (s : State) : Point := if l = .snapEnd then .leg .write .bw else afterStartSnap s

/-- After a snapshot's word its leg stays at the data point or ends the snapshot (R204). -/
theorem nextSnapWord_progress (done : State → State) (s : State) :
    (s.loopW.toNat < 255 → (nextSnapWord done s).seq = s.seq ∧ (nextSnapWord done s).loopW = s.loopW + 1#9) ∧
      (s.loopW.toNat = 255 → (nextSnapWord done s).seq = (done s).seq) := by
  refine ⟨fun hw => ?_, fun hw => ?_⟩
  · rw [nextSnapWord_of_lt hw]
    exact ⟨rfl, rfl⟩
  · rw [nextSnapWord_of_last hw]

/-- The step of a snapshot's data word keeps the word in the leg's snapshot; then comes the next word or, after word 255,
what follows the snapshot (R204, R221, R222). -/
theorem State.RunsAt.step_snapWord {l : Leg} (hl : l = .snapStart ∨ l = .snapEnd) (h : t.RunsAt (.leg l .xfer) e) :
    ∃ u, step t = .next u ∧ u.device = t.device.in16.2 ∧
      (u.snap l)[t.loopW.toNat]? = some (some t.device.in16.1) ∧
      (∀ k, k ≠ t.loopW.toNat → (u.snap l)[k]? = (t.snap l)[k]?) ∧ (l = .snapEnd → u.startSnap = t.startSnap) ∧
      t.onlyWriting u ∧ (t.loopW.toNat < 255 → u.seq = t.seq ∧ u.loopW = t.loopW + 1#9) ∧
      (t.loopW.toNat = 255 → u.seq = .run (l.afterSnap t)) := by
  rcases hl with rfl | rfl
  · obtain ⟨hself, hother, -⟩ := snapStartWord_kept h.inv h.seq
    have hprogress := snapStartStep_onlySnapProgress t
    have hframe : t.onlyWriting (snapStartStep t) := by rw [hprogress]; rfl
    exact ⟨_, step_at h.queue h.seq, hprogress.frame.2.1, hself, hother, nofun, hframe,
      nextSnapWord_progress endOfStartSnap (keepStart (portIn16 t).1 (portIn16 t).2)⟩
  · obtain ⟨hself, hother, hstart, -⟩ := snapEndWord_kept h.inv h.seq
    have hprogress := snapEndStep_onlySnapProgress t
    have hframe : t.onlyWriting (snapEndStep t) := by rw [hprogress]; rfl
    exact ⟨_, step_at h.queue h.seq, hprogress.frame.2.1, hself, hother, fun _ => hstart, hframe,
      nextSnapWord_progress endOfEndSnap (keepEnd (portIn16 t).1 (portIn16 t).2)⟩

/-- The leg `l` that began at `s` has read `n` words into its snapshot, from the disk of `d`; with the last of the 256 the
snapshot is over (R204). -/
structure State.SnapsAt (s : State) (d : RefDevice) (l : Leg) (n : Nat) (t : State) : Prop where
  runs : ∃ e, t.RunsAt (if n < 256 then .leg l .xfer else l.afterSnap s) e ∧ e.disk = d.disk ∧
    (n < 256 → e.phase = pioInAt (s.legLba l).toNat 1 n)
  word : n < 256 → t.loopW.toNat = n
  holds : (t.snap l).Holds d.disk (s.legLba l).toNat n
  start : l = .snapEnd → t.startSnap = s.startSnap
  frame : s.onlyWriting t

/-- The step of word `n` of a snapshot reads one word more (R76, R204). -/
theorem State.SnapsAt.step_word {l : Leg} {n : Nat} (hl : l = .snapStart ∨ l = .snapEnd) (h : s.SnapsAt d l n t)
    (hn : n < 256) : ∃ u, step t = .next u ∧ s.SnapsAt d l (n + 1) u := by
  obtain ⟨e, hrun, hdisk, hphase⟩ := h.runs
  rw [if_pos hn] at hrun
  obtain ⟨u, hstep, hdev, hself, hother, hstart, hframe, hnext, hlast⟩ := hrun.step_snapWord hl
  rw [in16_of_pioInAt hrun.device (hphase hn) (by omega), Nat.div_eq_of_lt hn, Nat.mod_eq_of_lt hn, hdisk,
    h.word hn] at hself
  rw [in16_of_pioInAt hrun.device (hphase hn) (by omega)] at hdev
  rw [h.word hn] at hother hnext hlast
  have hqueue : u.callerQueue = [] := by rw [hframe]; exact hrun.queue
  have hseq : u.seq = .run (if n + 1 < 256 then .leg l .xfer else l.afterSnap s) := by
    split_ifs with hmore
    · exact (hnext (by omega)).1.trans hrun.seq
    · rw [hlast (by omega), Leg.afterSnap, h.frame.afterStartSnap]
      rfl
  refine ⟨u, hstep, ⟨_, ⟨stepKeepsLegalStates _ _ hrun.inv hstep, hqueue, hseq, hdev⟩, hdisk, fun hmore => if_pos hmore⟩,
    fun hmore => ?word, fun k hk => ?holds, fun hend => (hstart hend).trans (h.start hend), h.frame.trans hframe⟩
  case word => rw [(hnext (by omega)).2, toNat_add9 (by rw [h.word hn]; exact hn), h.word hn]
  case holds =>
    rcases Nat.lt_succ_iff_lt_or_eq.1 hk with hlt | rfl
    · exact (hother k hlt.ne).trans (h.holds k hlt)
    · exact hself

/-- From the first word of a snapshot on, by induction on the number of words (R204). -/
theorem State.SnapsAt.reaches_word {l : Leg} (hl : l = .snapStart ∨ l = .snapEnd) (h : s.SnapsAt d l 0 t) {n : Nat}
    (hn : n ≤ 256) : ∃ u, steps n t = .next u ∧ s.SnapsAt d l n u := by
  induction n with
  | zero => exact ⟨t, rfl, h⟩
  | succ n ih =>
    obtain ⟨v, hrun, hv⟩ := ih (by omega)
    obtain ⟨u, hstep, hu⟩ := hv.step_word hl hn
    exact ⟨u, steps_trans hrun (steps_one hstep), hu⟩

/-- A snapshot is 265 steps: the programming and the command, one `waitReady` and the 256 words of its sector, after
which its array holds that sector of the disk and the disk is as before (R204, R223). -/
theorem State.RunsAt.snapshot {l : Leg} (hl : l = .snapStart ∨ l = .snapEnd) (h : s.RunsAt (.leg l .bw) d) :
    ∃ u e, steps 265 s = .next u ∧ u.RunsAt (l.afterSnap s) e ∧ e.disk = d.disk ∧
      (u.snap l).Holds d.disk (s.legLba l).toNat 256 ∧ (l = .snapEnd → u.startSnap = s.startSnap) ∧
      s.onlyWriting u := by
  have hcount : s.legCount l = 1#16 ∧ l.command = .readSectors := by rcases hl with rfl | rfl <;> exact ⟨rfl, rfl⟩
  obtain ⟨c, hcommand, hc, -, hW, ⟨hsnap, -⟩, hcframe⟩ := h.command
  rw [hcount.1, hcount.2] at hc
  obtain ⟨hphase, hdisk⟩ := programmed_readSectors (d := d) (lba := s.legLba l) (n := 1#16) (by decide) (by decide)
  obtain ⟨w, hwait, hw, hports⟩ := hc.waitReady (dataReady_of_pioInAt hphase)
  have hfirst : s.SnapsAt d l 0 w := by
    obtain ⟨-, -, -, -, ⟨-, hloopW⟩, ⟨hkept, -⟩, -⟩ := hports.frame
    exact ⟨⟨_, hw, hdisk, fun _ => hphase⟩, fun _ => by rw [hloopW, hW]; rfl, nofun, fun _ => hkept.trans hsnap,
      hcframe.trans hports.onlyWriting⟩
  obtain ⟨u, hwords, ⟨e, hu, hedisk, -⟩, -, hholds, hstart, hframe⟩ := hfirst.reaches_word hl (le_refl 256)
  exact ⟨u, e, steps_trans (steps_trans hcommand hwait) hwords, hu, hedisk, hholds, hstart, hframe⟩

/-- From WRITE's first point the start snapshot is taken exactly when the cursor is unaligned (R221, R223). -/
theorem State.RunsAt.startSnapshot (h : s.RunsAt (firstWritePoint s) d) (hok : s.TransferOk) :
    ∃ u e, steps (if s.pos.toNat % 512 = 0 then 0 else 265) s = .next u ∧ u.RunsAt (afterStartSnap s) e ∧
      e.disk = d.disk ∧ (s.pos.toNat % 512 ≠ 0 → u.startSnap.Holds d.disk (s.pos.toNat / 512) 256) ∧
      s.onlyWriting u := by
  rw [firstWritePoint_eq hok] at h
  by_cases hoff : s.pos.toNat % 512 = 0
  · rw [if_neg (not_not.2 hoff), ← afterStartSnap_eq hok] at h
    rw [if_pos hoff]
    exact ⟨s, d, rfl, h, rfl, fun hne => absurd hoff hne, rfl⟩
  · rw [if_pos hoff] at h
    obtain ⟨u, e, hrun, hu, hdisk, hholds, -, hframe⟩ := h.snapshot (.inl rfl)
    have hlba : (s.legLba .snapStart).toNat = s.pos.toNat / 512 := hok.lba
    rw [if_neg hoff]
    exact ⟨u, e, hrun, hu, hdisk, fun _ => hlba ▸ hholds, hframe⟩

/-- After it the end snapshot is taken exactly when the end is unaligned; the start snapshot stays (R222, R223). -/
theorem State.RunsAt.endSnapshot (h : s.RunsAt (afterStartSnap s) d) (hok : s.TransferOk) :
    ∃ u e, steps (if (s.pos.toNat + s.tL.toNat) % 512 = 0 then 0 else 265) s = .next u ∧ u.RunsAt (.leg .write .bw) e ∧
      e.disk = d.disk ∧
      ((s.pos.toNat + s.tL.toNat) % 512 ≠ 0 → u.endSnap.Holds d.disk ((s.pos.toNat + s.tL.toNat) / 512) 256) ∧
      u.startSnap = s.startSnap ∧ s.onlyWriting u := by
  rw [afterStartSnap_eq hok] at h
  by_cases hend : (s.pos.toNat + s.tL.toNat) % 512 = 0
  · rw [if_neg (not_not.2 hend)] at h
    rw [if_pos hend]
    exact ⟨s, d, rfl, h, rfl, fun hne => absurd hend hne, rfl, rfl⟩
  · rw [if_pos hend] at h
    obtain ⟨u, e, hrun, hu, hdisk, hholds, hstart, hframe⟩ := h.snapshot (.inr rfl)
    have hlba : (s.legLba .snapEnd).toNat = (s.pos.toNat + s.tL.toNat) / 512 := by
      rw [legLba_toNat, if_pos rfl, hok.endPos]
    rw [if_neg hend]
    exact ⟨u, e, hrun, hu, hdisk, fun _ => hlba ▸ hholds, hstart rfl, hframe⟩

/-! ### The data phase of WRITE -/

/-- WRITE of the operands latched in `s` stands at stage `p` of its own leg, with the snapshots it needs of the disk of
`d` taken and the first `n` words of its sectors written (R224, R227). -/
structure State.WritesAt (s : State) (d : RefDevice) (p : Stage) (n : Nat) (t : State) : Prop where
  runs : ∃ e, t.RunsAt (.leg .write p) e ∧
    e.phase = pioOutAt (s.pos.toNat / 512) (requiredSectors s.pos.toNat s.tL.toNat) n ∧
    WrittenTo s.mem d.disk s.pos.toNat s.tBuf.toNat s.tL.toNat (2 * n) e.disk
  word : 256 * t.loopS.toNat + t.loopW.toNat = n
  start : s.pos.toNat % 512 ≠ 0 → t.startSnap.Holds d.disk (s.pos.toNat / 512) 256
  finish : (s.pos.toNat + s.tL.toNat) % 512 ≠ 0 → t.endSnap.Holds d.disk ((s.pos.toNat + s.tL.toNat) / 512) 256
  frame : s.onlyWriting t

/-- The transfer registers of the WRITE in its leg (R30). -/
theorem State.WritesAt.transferOk {p : Stage} {n : Nat} (h : s.WritesAt d p n t) : t.TransferOk := by
  obtain ⟨e, hrun, -⟩ := h.runs
  exact (running_facts hrun.inv hrun.seq).2.2.2.1.2.1

/-- T_SECT is the required sector count (R30). -/
theorem State.WritesAt.tSect_eq {p : Stage} {n : Nat} (h : s.WritesAt d p n t) :
    t.tSect.toNat = requiredSectors s.pos.toNat s.tL.toNat := by
  obtain ⟨hpos, -, hlen, -⟩ := h.frame.operands
  rw [h.transferOk.sectors, hpos, hlen]

/-- At the data point word `n` is one of the transfer's, and the loop variables are its sector and its place there
(R31, R224). -/
theorem State.WritesAt.loops {n : Nat} (h : s.WritesAt d .xfer n t) :
    n < 256 * requiredSectors s.pos.toNat s.tL.toNat ∧ t.loopS.toNat = n / 256 ∧ t.loopW.toNat = n % 256 := by
  obtain ⟨e, hrun, -⟩ := h.runs
  obtain ⟨-, -, -, ⟨-, -, ⟨hw, hsec⟩, -⟩, -⟩ := running_facts hrun.inv hrun.seq
  have hsec : t.loopS.toNat < t.tSect.toNat := hsec
  have hword := h.word
  rw [h.tSect_eq] at hsec
  omega

/-- `waitReady` ends at once, because the device is in its write phase (R76, R181). -/
theorem State.WritesAt.waitReady {n : Nat} (h : s.WritesAt d .wrBsy n t) :
    ∃ u, steps 2 t = .next u ∧ s.WritesAt d .xfer n u := by
  obtain ⟨e, hrun, hphase, hwritten⟩ := h.runs
  obtain ⟨u, hsteps, hu, hports⟩ := hrun.waitReady (dataReady_of_pioOutAt hphase)
  obtain ⟨-, -, -, -, ⟨hS, hW⟩, ⟨hstart, hend, -⟩, -⟩ := hports.frame
  exact ⟨u, hsteps, ⟨e, hu, hphase, hwritten⟩, by rw [hS, hW, h.word], hstart ▸ h.start, hend ▸ h.finish,
    h.frame.trans hports.onlyWriting⟩

/-- The step of word `n` pushes the bytes that are to stand there and takes the device one word on; the loop variables or
the flush follow (R76, R224, R225). -/
theorem State.WritesAt.step_word {n : Nat} (h : s.WritesAt d .xfer n t) :
    ∃ v e, step t = .next (nextWord .write (goPoint .flBsy) (portOut16 v t)) ∧
      (nextWord .write (goPoint .flBsy) (portOut16 v t)).Inv ∧ t.callerQueue = [] ∧ t.seq = .run (.leg .write .xfer) ∧
      (portOut16 v t).device = .present e ∧
      e.phase = (if n + 1 < 256 * requiredSectors s.pos.toNat s.tL.toNat then
        pioOutAt (s.pos.toNat / 512) (requiredSectors s.pos.toNat s.tL.toNat) (n + 1) else .idle) ∧
      WrittenTo s.mem d.disk s.pos.toNat s.tBuf.toNat s.tL.toNat (2 * (n + 1)) e.disk := by
  obtain ⟨e, hrun, hphase, hwritten⟩ := h.runs
  obtain ⟨hn, hS, hW⟩ := h.loops
  obtain ⟨hpos, hbuf, hlen, hmem⟩ := h.frame.operands
  have hmax := h.transferOk.sectorsMax
  rw [h.tSect_eq] at hmax
  obtain ⟨v, hmerges, hstep⟩ := step_writeWord hrun.inv hrun.queue hrun.seq
  obtain ⟨hlo, hhi⟩ := hmerges.bytes h.transferOk hS hW (hpos ▸ hlen ▸ hn) (hpos ▸ h.start) (hpos ▸ hlen ▸ h.finish)
  rw [hpos, hbuf, hlen, hmem] at hlo hhi
  have hdisk : e.disk.wf = true := by
    have hok := hrun.inv.device
    rw [hrun.device] at hok
    exact hok.1
  have hdev : (portOut16 v t).device = .present (e.out16 v) := by
    show t.device.out16 v = _
    rw [hrun.device]
    rfl
  rw [out16_of_pioOutAt hphase hn] at hdev
  exact ⟨v, _, hstep, stepKeepsLegalStates _ _ hrun.inv hstep, hrun.queue, hrun.seq, hdev, rfl,
    hwritten.push hdisk (by omega) hlo hhi⟩

/-- Before a sector's last word comes the next word (R224). -/
theorem State.WritesAt.next_word {n : Nat} (h : s.WritesAt d .xfer n t) (hw : n % 256 < 255) :
    ∃ u, steps 1 t = .next u ∧ s.WritesAt d .xfer (n + 1) u := by
  obtain ⟨hn, -, hW⟩ := h.loops
  have hword := h.word
  obtain ⟨v, e, hstep, hinv, hqueue, hseq, hdev, hphase, hwritten⟩ := h.step_word
  rw [nextWord_of_lt (s := portOut16 v t) (hW.trans_lt hw)] at hstep hinv
  rw [if_pos (by omega)] at hphase
  have hcount : 256 * t.loopS.toNat + (t.loopW + 1#9).toNat = n + 1 := by rw [toNat_add9 (by omega)]; omega
  exact ⟨_, steps_one hstep, ⟨e, ⟨hinv, hqueue, hseq, hdev⟩, hphase, hwritten⟩, hcount, h.start, h.finish,
    h.frame.trans rfl⟩

/-- After a sector's last word comes the next sector's `waitReady`, then its first word (R224; log entry 6). -/
theorem State.WritesAt.next_sector {n : Nat} (h : s.WritesAt d .xfer n t) (hw : n % 256 = 255)
    (hmore : n + 1 < 256 * requiredSectors s.pos.toNat s.tL.toNat) :
    ∃ u, steps 3 t = .next u ∧ s.WritesAt d .xfer (n + 1) u := by
  obtain ⟨-, hS, hW⟩ := h.loops
  have hsect := h.tSect_eq
  have hmax := h.transferOk.sectorsMax
  obtain ⟨v, e, hstep, hinv, hqueue, -, hdev, hphase, hwritten⟩ := h.step_word
  have hsec : t.loopS.toNat + 1 < t.tSect.toNat := by omega
  rw [nextWord_of_more_sectors (s := portOut16 v t) (hW.trans hw) hsec] at hstep hinv
  rw [if_pos hmore] at hphase
  have hcount : 256 * (t.loopS + 1#16).toNat + 0 = n + 1 := by rw [toNat_add16 (by omega)]; omega
  have hwait : s.WritesAt d .wrBsy (n + 1) (goPoint (.leg .write .wrBsy) (bumpSector (portOut16 v t))) :=
    ⟨⟨e, ⟨hinv, hqueue, rfl, hdev⟩, hphase, hwritten⟩, hcount, h.start, h.finish, h.frame.trans rfl⟩
  obtain ⟨u, hrun, hu⟩ := hwait.waitReady
  exact ⟨u, steps_trans (steps_one hstep) hrun, hu⟩

/-- From the first `waitReady` to word `n`: one step for each word in front of it and two for each `waitReady` up to its
sector's, by induction on `n` (R181, R224). -/
theorem State.WritesAt.reaches_word (h : s.WritesAt d .wrBsy 0 t) {n : Nat}
    (hn : n < 256 * requiredSectors s.pos.toNat s.tL.toNat) :
    ∃ u, steps (n + 2 * (n / 256) + 2) t = .next u ∧ s.WritesAt d .xfer n u := by
  induction n with
  | zero => exact h.waitReady
  | succ n ih =>
    obtain ⟨v, hrun, hv⟩ := ih (by omega)
    rcases Nat.lt_or_ge (n % 256) 255 with hw | hw
    · obtain ⟨u, hword, hu⟩ := hv.next_word hw
      rw [show n + 1 + 2 * ((n + 1) / 256) + 2 = n + 2 * (n / 256) + 2 + 1 by omega]
      exact ⟨u, steps_trans hrun hword, hu⟩
    · obtain ⟨u, hsector, hu⟩ := hv.next_sector (by omega) hn
      rw [show n + 1 + 2 * ((n + 1) / 256) + 2 = n + 2 * (n / 256) + 2 + 3 by omega]
      exact ⟨u, steps_trans hrun hsector, hu⟩

/-- After the step of the last word the flush is due, with all the sectors written (R226). -/
theorem State.WritesAt.last_word {n : Nat} (h : s.WritesAt d .xfer n t)
    (hlast : n + 1 = 256 * requiredSectors s.pos.toNat s.tL.toNat) :
    ∃ u e, steps 1 t = .next u ∧ u.RunsAt .flBsy e ∧ s.onlyWriting u ∧
      WrittenTo s.mem d.disk s.pos.toNat s.tBuf.toNat s.tL.toNat (512 * requiredSectors s.pos.toNat s.tL.toNat)
        e.disk := by
  obtain ⟨-, hS, hW⟩ := h.loops
  have hsect := h.tSect_eq
  obtain ⟨v, e, hstep, hinv, hqueue, -, hdev, -, hwritten⟩ := h.step_word
  rw [nextWord_of_last (s := portOut16 v t) (hW.trans (by omega)) (show t.loopS.toNat + 1 = t.tSect.toNat by omega)]
    at hstep hinv
  rw [hlast, ← Nat.mul_assoc] at hwritten
  exact ⟨_, e, steps_one hstep, ⟨hinv, hqueue, rfl, hdev⟩, h.frame.trans rfl, hwritten⟩

/-- From WRITE's own leg to its flush: the programming, the command and the words of its sectors (R220, R224). -/
theorem State.RunsAt.writeSectors (h : t.RunsAt (.leg .write .bw) e) (hdisk : e.disk = d.disk)
    (hframe : s.onlyWriting t) (hstart : s.pos.toNat % 512 ≠ 0 → t.startSnap.Holds d.disk (s.pos.toNat / 512) 256)
    (hend : (s.pos.toNat + s.tL.toNat) % 512 ≠ 0 →
      t.endSnap.Holds d.disk ((s.pos.toNat + s.tL.toNat) / 512) 256) :
    ∃ u e, steps (7 + 258 * requiredSectors s.pos.toNat s.tL.toNat) t = .next u ∧ u.RunsAt .flBsy e ∧
      s.onlyWriting u ∧ WrittenTo s.mem d.disk s.pos.toNat s.tBuf.toNat s.tL.toNat
        (512 * requiredSectors s.pos.toNat s.tL.toNat) e.disk := by
  have hok : t.TransferOk := (running_facts h.inv h.seq).2.2.2.1.2.1
  obtain ⟨hpos, -, hlen, -⟩ := hframe.operands
  obtain ⟨c, hcommand, hc, hS, hW, ⟨hsnap, hsnap', -⟩, hcframe⟩ := h.command
  have hphase := programmed_writeSectors (d := e) (lba := t.tLba) (hok.legCount_pos .write) (hok.legCount_le .write)
  have hsectors : (t.legCount .write).toNat = requiredSectors s.pos.toNat s.tL.toNat := by
    rw [← hpos, ← hlen]; exact hok.sectors
  rw [hok.lba, hsectors, hpos] at hphase
  have hfirst : s.WritesAt d .wrBsy 0 c :=
    ⟨⟨_, hc, hphase, nofun, fun a _ => by rw [← hdisk]; exact congrArg (·.get a) (command_disk _ _)⟩,
      by rw [hS, hW]; rfl, hsnap ▸ hstart, hsnap' ▸ hend, hframe.trans hcframe⟩
  have hone := requiredSectors_pos s.pos.toNat (hlen ▸ hok.nonempty)
  obtain ⟨w, hwords, hw⟩ := hfirst.reaches_word (n := 256 * requiredSectors s.pos.toNat s.tL.toNat - 1) (by omega)
  obtain ⟨u, e', hlast, hu, huframe, hwritten⟩ := hw.last_word (by omega)
  have hrun := steps_trans (steps_trans hcommand hwords) hlast
  refine ⟨u, e', ?run, hu, huframe, hwritten⟩
  case run =>
    rw [← hrun]
    congr 1
    omega

/-! ### The whole WRITE -/

/-- The closing flush completes the WRITE in two steps; the disk is as before (R185, R226). -/
theorem State.RunsAt.closingFlush (h : t.RunsAt .flBsy e) :
    ∃ u, steps 2 t = .next u ∧ u.seq = .idle ∧ u.pos = t.tEnd ∧ u.result = t.tL ∧ u.ustat = 0x0002#16 ∧
      t.sameBytes u ∧ ∃ e', u.device = .present e' ∧ e'.phase = .idle ∧ e'.disk = e.disk := by
  have hread := in8_statCmd_of_present h.device
  have hpoll := step_of_busyWaitAt h.queue h.seq (.inr (.inr ⟨rfl, rfl⟩))
  have hports := poll_onlyPorts busyClear .flCmd t
  have hflush : (poll busyClear .flCmd t).seq = .run .flCmd := by
    rw [poll_seq_of_run _ _ h.seq, hread, if_pos (busyClear_status e)]
  obtain ⟨-, hfault, hinit, -⟩ := running_facts h.inv h.seq
  have hinit : t.inited = true := hinit
  obtain ⟨u, hexec, -, hdev, hseq, hpos, hresult, hustat, -, -, -, -, -, -, -, hbytes⟩ :=
    cacheFlushCompletesWrite _ hflush
  have hstep := (step_at (hports.callerQueue.trans h.queue) hflush).trans hexec
  rw [poll_device, hread] at hdev
  refine ⟨u, steps_trans (steps_one hpoll) (steps_one hstep), hseq, ?pos, ?result, ?ustat, ?bytes, _, hdev, rfl,
    command_disk e 0xE7#8⟩
  case pos => rw [hpos, hports]
  case result => rw [hresult, hports]
  case ustat =>
    rw [hustat, hports]
    show ustatOf false t.inited t.faultFlag 0x00#8 = _
    rw [hinit, hfault]
    rfl
  case bytes =>
    intro a
    rw [hbytes, hports]

/-- The step that takes an accepted WRITE word off the queue (R39, R220). -/
theorem step_of_writeWord {rest : List CallerMove} (h : s.Inv) (hs : s.seq = .idle)
    (hq : s.callerQueue = .writeReq 0x06#8 :: rest) (hl : 0 < s.arg1.toNat) (hfit : s.TransferFits) :
    step s = .next (setQueue rest s).writeBegun :=
  have hready : (setQueue rest s).Ready := ⟨hs, (inv_setQueue h rest).status⟩
  calc step s
      = writeReq 0x06#8 (setQueue rest s) := step_of_callerQueue_cons hq
    _ = exec .write (setQueue rest s) := writeReq_of_decode (decodeRequest_encode (i := .write) rfl) _
    _ = _ := execWrite_of_length hready (hfit.congr rfl rfl rfl) hl

/-- A WRITE that has been accepted takes its snapshots, writes its sectors and closes with the flush (R220, R223, R227). -/
theorem State.RunsAt.write (h : s.RunsAt (firstWritePoint s) d) (hok : s.TransferOk) :
    ∃ u, steps ((if s.pos.toNat % 512 = 0 then 0 else 265) +
        (if (s.pos.toNat + s.tL.toNat) % 512 = 0 then 0 else 265) +
        (7 + 258 * requiredSectors s.pos.toNat s.tL.toNat) + 2) s = .next u ∧ u.seq = .idle ∧
      u.pos = s.pos + s.tL ∧ u.result = s.tL ∧ u.ustat = 0x0002#16 ∧ s.sameBytes u ∧
      ∃ e, u.device = .present e ∧ e.phase = .idle ∧
        WrittenTo s.mem d.disk s.pos.toNat s.tBuf.toNat s.tL.toNat (512 * requiredSectors s.pos.toNat s.tL.toNat)
          e.disk := by
  obtain ⟨a, da, hfirst, ha, hadisk, hastart, haframe⟩ := h.startSnapshot hok
  obtain ⟨hpos, -, hlen, -⟩ := haframe.operands
  obtain ⟨b, db, hsecond, hb, hbdisk, hbend, hbstart, hbframe⟩ :=
    State.RunsAt.endSnapshot (haframe.afterStartSnap.symm ▸ ha) (haframe.transferOk hok)
  rw [hpos, hlen] at hsecond hbend
  obtain ⟨c, dc, hwords, hc, hcframe, hwritten⟩ := hb.writeSectors (hbdisk.trans hadisk) (haframe.trans hbframe)
    (hbstart ▸ hastart) (hadisk ▸ hbend)
  obtain ⟨u, hflush, hseq, hupos, hresult, hustat, hbytes, e, hdev, hphase, hdisk⟩ := hc.closingFlush
  obtain ⟨-, -, hclen, hcmem⟩ := hcframe.operands
  have hcend : c.tEnd = s.pos + s.tL := by
    have hend := hok.endPos
    have hrange := hok.endsInRange
    rw [hcframe]
    exact BitVec.eq_of_toNat_eq (hend.trans (BitVec.toNat_add_of_lt (by omega)).symm)
  exact ⟨u, steps_trans (steps_trans (steps_trans hfirst hsecond) hwords) hflush, hseq, hupos.trans hcend,
    hresult.trans hclen, hustat, fun x => (hbytes x).trans (congrArg (·.get x) hcmem), e, hdev, hphase, hdisk ▸ hwritten⟩

/-- Settles O58: one step accepts WRITE; the run that follows leaves the buffer at the cursor's bytes of the disk and every
other byte as it was. -/
theorem writePreservesOtherBytes : Obligations.WritePreservesOtherBytes := by
  intro s d h hs hq hd _ hl hfit
  have haccept := step_of_writeWord h hs hq hl hfit
  have hok : (setQueue [] s).writeBegun.TransferOk := writeBegun_ok (hfit.congr rfl rfl rfl) hl
  have hstart : (setQueue [] s).writeBegun.RunsAt (firstWritePoint (setQueue [] s).writeBegun) d :=
    ⟨stepKeepsLegalStates _ _ h haccept, rfl, rfl, hd⟩
  obtain ⟨t, hrun, hseq, hpos, hresult, hustat, hbytes, e, hdev, hphase, hwritten⟩ := hstart.write hok
  have hcover : s.pos.toNat % 512 + s.arg1.toNat ≤ 512 * requiredSectors s.pos.toNat s.arg1.toNat := by
    rw [requiredSectors_eq_div _ hl]
    omega
  have hsteps := steps_trans (steps_one haccept) hrun
  refine ⟨t, ?run, hseq, hpos, hresult, hustat, hbytes, e, hdev, hphase, hwritten.all hcover⟩
  case run =>
    rw [← hsteps]
    congr 1
    show _ = 1 + ((if s.pos.toNat % 512 = 0 then 0 else 265) +
      (if (s.pos.toNat + s.arg1.toNat) % 512 = 0 then 0 else 265) +
      (7 + 258 * requiredSectors s.pos.toNat s.arg1.toNat) + 2)
    omega

end Sys2Proof.Machine
end

section
/-! PROOFS. What a step of a running request does (R37, R40, R262): a legal state stops only at a broken ownership, and
from it a point's step goes on, completes its request or finds INIT's device absent. -/

namespace Sys2Proof.Machine

variable {s t : State}

/-! ### No legal state stops -/

/-- A data word of a legal state finds every byte and snapshot element it reads (R51, R262). -/
theorem xferStep_answers {l : Leg} (h : s.Inv) (hs : s.seq = .run (.leg l .xfer)) : ∃ t, xferStep l s = .next t := by
  cases l with
  | read =>
    obtain ⟨-, -, -, ⟨-, hok, -, -⟩, -⟩ := running_facts h hs
    obtain ⟨m, hm⟩ := scatter_isSome (idx := s.wordIdx) hok.bufferInRange hok.nonempty (portIn16 s).1 s.mem
    exact ⟨nextWord .read endOfRead (setMem m (portIn16 s).2), by rw [xferStep, readWordStep, hm]⟩
  | snapStart => exact ⟨_, rfl⟩
  | snapEnd => exact ⟨_, rfl⟩
  | write =>
    obtain ⟨v, hv, -⟩ := mergeWord_of_inv h hs
    exact ⟨nextWord .write (goPoint .flBsy) (portOut16 v s), by rw [xferStep, writeWordStep, hv]⟩

/-- The command of a point is due there (R188), and every other point but a data word's answers in every state (R37). -/
theorem pointStep_answers {pt : Point} (h : s.Inv) (hs : s.seq = .run pt) : ∃ t, pointStep pt s = .next t := by
  cases pt with
  | leg l p =>
    cases p with
    | cmd => exact exec_of_dueCommand_next (i := l.command) (by rw [hs]; rfl)
    | xfer => exact xferStep_answers h hs
    | _ => exact ⟨_, rfl⟩
  | flCmd => exact exec_of_dueCommand_next (i := .cacheFlush) (by rw [hs]; rfl)
  | _ => exact ⟨_, rfl⟩

/-- The unit's own step from a legal state has a next state (R40). -/
theorem unitStep_answers (h : s.Inv) : ∃ t, unitStep s = .next t := by
  unfold unitStep
  split
  next pt hs => exact pointStep_answers h hs
  all_goals exact ⟨s, rfl⟩

/-- Every word the caller writes has a next state, from every state (R39, R83). -/
theorem writeReq_answers (q : Byte) (s : State) : ∃ t, writeReq q s = .next t := by
  cases hq : decodeRequest q with
  | ok i => exact ⟨_, (writeReq_of_decode hq s).trans (exec_request (encode_of_decodeRequest hq).2 s)⟩
  | error e => exact ⟨_, writeReq_of_decode_error hq s⟩

/-- A legal state stops at nothing but the caller's access to the buffer in use (R68, R262; log entries 9 to 12). -/
theorem step_answers (h : s.Inv) :
    (∃ t, step s = .next t) ∨
      (step s = .refused .ownershipBroken ∧ ∃ a, s.memMoveNext = some a ∧ ownedByUnit s a = true) := by
  cases hq : s.callerQueue with
  | nil => exact .inl ((step_of_callerQueue_nil hq).symm ▸ unitStep_answers h)
  | cons m rest =>
    rw [step_of_callerQueue_cons hq]
    cases m with
    | writeReq q => exact .inl (writeReq_answers q _)
    | writeMem a v =>
      cases ho : ownedByUnit s a.toNat with
      | true => exact .inr ⟨callerWriteMem_of_owned v ho, a.toNat, by rw [State.memMoveNext, hq], ho⟩
      | false => exact .inl ⟨_, callerWriteMem_of_not_owned v ho⟩
    | readMem a =>
      cases ho : ownedByUnit s a.toNat with
      | true => exact .inr ⟨callerReadMem_of_owned ho, a.toNat, by rw [State.memMoveNext, hq], ho⟩
      | false => exact .inl ⟨_, callerReadMem_of_not_owned ho⟩
    | yield => exact .inl (unitStep_answers (inv_setQueue h rest))
    | awaitDone =>
      cases hb : s.busy with
      | true => exact .inl ((unitStep_answers h).imp fun _ hu => (awaitDone_of_busy (s := setQueue rest s) hb).trans hu)
      | false => exact .inl ⟨_, awaitDone_of_not_busy hb⟩
    | _ => exact .inl ⟨_, rfl⟩

/-- Settles O56: a legal state's step has a next state or is the one refusal, and the next state is legal again, so
UNWRITTEN_SNAPSHOT has not been raised. -/
theorem legalStatesDoNotStop : Obligations.LegalStatesDoNotStop :=
  fun s h => (step_answers h).imp_left fun ⟨t, ht⟩ => ⟨t, ht, (stepKeepsLegalStates s t h ht).snapshotFault⟩

end Sys2Proof.Machine
end

section
/-! PROOFS. The way of a running request (R36, R37): from a legal state the step of a point goes on, completes the
request or finds INIT's device absent; what each of them writes, and what a step that enters FAULTED writes (R255, R257,
R291). -/

namespace Sys2Proof.Machine

variable {s t : State}

/-! ### What the step of a point can do -/

/-- POS, USTAT, REQ, RESULT, the bases and the latched registers are as before: what a running request leaves (R291). -/
def State.Steady (s t : State) : Prop := s.sameStatus t ∧ s.sameBases t ∧ s.sameTransfer t

/-- A step that moves only caller memory, the device, the trace, SEQ, the loop variables and the snapshots with their
flags is steady. -/
theorem steady_update (s : State) (m : Memory) (d : Device) (x : List PortTx) (q : Seq) (a : Word16) (b : BitVec 9)
    (u v : Snapshot) (f g : Bool) :
    s.Steady { s with
      mem := m, device := d, trace := x, seq := q, loopS := a, loopW := b
      startSnap := u, endSnap := v, haveStart := f, haveEnd := g } :=
  ⟨⟨rfl, rfl, rfl, rfl⟩, ⟨rfl, rfl⟩, ⟨rfl, rfl, rfl, rfl, rfl, rfl, rfl⟩⟩

/-- The request that `s` runs goes on in `t`: a point of a request comes next, and the registers are steady. -/
structure State.GoesOn (s t : State) : Prop where
  running : ∃ pt, t.seq = .run pt
  steady : s.Steady t

/-- A steady step leaves BUSY (R24). -/
theorem State.Steady.busy_eq (h : s.Steady t) : t.busy = s.busy := by
  obtain ⟨⟨-, hustat, -⟩, -⟩ := h
  rw [State.busy, hustat]
  rfl

/-- SEQ is not FAULTED while the request goes on (R35). -/
theorem State.GoesOn.seq_ne_faulted (h : s.GoesOn t) : t.seq ≠ .faulted := by
  obtain ⟨pt, hpt⟩ := h.running
  simp [hpt]

/-- A step that leaves the unit but for ARG0 and ARG1 is steady (R20). -/
theorem State.sameUnit.steady (h : s.sameUnit t) : s.Steady t := by
  obtain ⟨hcmd, hctl, hpos, hustat, hreq, hresult, hop, hbuf, hlen, hoff, hlba, hsect, hend, -⟩ := h
  exact ⟨⟨hpos, hustat, hreq, hresult⟩, ⟨hcmd, hctl⟩, hop, hbuf, hlen, hoff, hlba, hsect, hend⟩

/-- A poll and a register write leave every register (R180, R182). -/
theorem State.onlyPorts.steady (h : s.onlyPorts t) : s.Steady t :=
  have ⟨hstatus, hbases, _, htransfer, _⟩ := h.frame
  ⟨hstatus, hbases, htransfer⟩

/-- The update after a snapshot's word leaves every register (R204). -/
theorem State.onlySnapProgress.steady (h : s.onlySnapProgress t) : s.Steady t :=
  have ⟨_, _, hstatus, hbases, _, htransfer, _⟩ := h.frame
  ⟨hstatus, hbases, htransfer⟩

/-- A poll stays at its point or goes to the next (R180, R181). -/
theorem poll_goesOn {p : Point} (done : Byte → Bool) (q : Point) (hs : s.seq = .run p) : s.GoesOn (poll done q s) :=
  ⟨⟨_, poll_seq_of_run done q hs⟩, (poll_onlyPorts done q s).steady⟩

/-- A register write of `beginTransfer` goes to the next point (R182). -/
theorem programStep_goesOn (p : PortName) (v : Byte) (pt : Point) (s : State) : s.GoesOn (programStep p v pt s) :=
  ⟨⟨pt, rfl⟩, (programStep_onlyPorts p v pt s).steady⟩

/-- A data word of READ or WRITE leaves a point of the request to come and every register, but for the end of the data
phase (R201, R224). -/
theorem nextWord_goesOn_or_done {pt : Point} (l : Leg) (done : State → State) (hs : s.seq = .run pt) :
    s.GoesOn (nextWord l done s) ∨ nextWord l done s = done s := by
  rcases nextWord_cases l done s with e | e | e <;> rw [e]
  · exact .inl ⟨⟨pt, hs⟩, steady_update s ..⟩
  · exact .inl ⟨⟨_, rfl⟩, steady_update s ..⟩
  · exact .inr rfl

/-- A data word of a snapshot leaves a point of the request to come (R204). -/
theorem nextSnapWord_seq_running {pt : Point} {done : State → State} (hs : s.seq = .run pt)
    (hdone : ∃ pt, (done s).seq = .run pt) : ∃ pt, (nextSnapWord done s).seq = .run pt := by
  rcases nextSnapWord_cases done s with e | e <;> rw [e]
  exacts [⟨pt, hs⟩, hdone]

/-- The end of a transfer is a completion with OK and the length (R200, R220, R257). -/
theorem finishTransfer_completedWith (hinit : s.inited = true) (hfault : s.faultFlag = false) (p : Word64) :
    (finishTransfer p s).completedWith p s.tL := by
  refine ⟨?_, rfl, rfl, rfl⟩
  show ustatOf false s.inited s.faultFlag 0x00#8 = _
  rw [hinit, hfault]

/-- INIT's control write completes it with the handle's values (R130, R257). -/
theorem initControlStep_completedWith (hfault : s.faultFlag = false) :
    (initControlStep s).completedWith 0#64 0#64 := by
  refine ⟨?_, rfl, rfl, rfl⟩
  show ustatOf false (setInited _).inited (setInited _).faultFlag 0x00#8 = _
  rw [setInited_inited, setInited_faultFlag]
  show ustatOf false true s.faultFlag 0x00#8 = _
  rw [hfault]

/-- A data word goes on or, READ's last, completes the request (R201, R204, R224). -/
theorem xferStep_cases {l : Leg} (h : s.Inv) (hs : s.seq = .run (.leg l .xfer)) (ht : xferStep l s = .next t) :
    s.GoesOn t ∨ t.completedWith (s.pos + s.tL) s.tL := by
  cases l with
  | read =>
    obtain ⟨m, -, rfl⟩ := readWordStep_next ht
    obtain ⟨-, hfault, hinit, -⟩ := running_facts h hs
    have hdone : (endOfRead (setMem m (portIn16 s).2)).completedWith (s.pos + s.tL) s.tL :=
      finishTransfer_completedWith (s := setMem m (portIn16 s).2) hinit hfault (s.pos + s.tL)
    rcases nextWord_goesOn_or_done .read endOfRead (s := setMem m (portIn16 s).2) hs with ⟨hrun, hsteady⟩ | e
    · exact .inl ⟨hrun, hsteady⟩
    · exact .inr (e ▸ hdone)
  | snapStart =>
    cases ht
    exact .inl ⟨nextSnapWord_seq_running hs ⟨_, rfl⟩, (snapStartStep_onlySnapProgress s).steady⟩
  | snapEnd =>
    cases ht
    exact .inl ⟨nextSnapWord_seq_running hs ⟨_, rfl⟩, (snapEndStep_onlySnapProgress s).steady⟩
  | write =>
    rcases writeWordStep_cases s with ⟨v, -, e⟩ | ⟨hm, -⟩ | ⟨-, e⟩
    · cases e.symm.trans ht
      rcases nextWord_goesOn_or_done .write (goPoint .flBsy) (s := portOut16 v s) hs with ⟨hrun, hsteady⟩ | e
      · exact .inl ⟨hrun, hsteady⟩
      · exact .inl ⟨⟨.flBsy, by rw [e, goPoint_seq]⟩, e ▸ steady_update s ..⟩
    · exact absurd hm (mergeWord_ne_unwritten_of_inv h hs)
    · cases e.symm.trans ht

/-- So does the step of every point of a command sequence (R180 to R184). -/
theorem legStep_cases {l : Leg} {p : Stage} (h : s.Inv) (hs : s.seq = .run (.leg l p)) (ht : legStep l p s = .next t) :
    s.GoesOn t ∨ t.completedWith (s.pos + s.tL) s.tL := by
  cases p with
  | bw => cases ht; exact .inl (poll_goesOn _ _ hs)
  | sel => cases ht; exact .inl (programStep_goesOn ..)
  | cnt => cases ht; exact .inl (programStep_goesOn ..)
  | l0 => cases ht; exact .inl (programStep_goesOn ..)
  | l1 => cases ht; exact .inl (programStep_goesOn ..)
  | l2 => cases ht; exact .inl (programStep_goesOn ..)
  | cmd =>
    obtain ⟨l', -, rfl⟩ := issueTransfer_next ((exec_legCommand l s).symm.trans ht)
    exact .inl ⟨⟨_, rfl⟩, steady_update s ..⟩
  | wrBsy => cases ht; exact .inl (poll_goesOn _ _ hs)
  | wrDrq => cases ht; exact .inl (poll_goesOn _ _ hs)
  | xfer => exact xferStep_cases h hs ht

/-- The request that `s` runs completes in `t`, with what it writes to POS and RESULT (R130, R200, R220, R257). -/
inductive State.Completes (s t : State) : Prop
  | init (hs : s.seq = .run .initControl) (h : t.completedWith 0#64 0#64)
  | transfer (hs : s.seq ≠ .run .initControl) (hok : s.TransferOk) (h : t.completedWith (s.pos + s.tL) s.tL)

theorem State.Completes.seq_ne_faulted (h : s.Completes t) : t.seq ≠ .faulted := by
  rcases h with ⟨-, -, hseq, -⟩ | ⟨-, -, -, hseq, -⟩ <;> simp [hseq]

/-- BUSY falls in a completion (R257). -/
theorem State.Completes.not_busy (h : s.Completes t) : t.busy = false := by
  rcases h with ⟨-, hustat, -⟩ | ⟨-, -, hustat, -⟩ <;> rw [State.busy, hustat, ustatBusy_ustatOf]

/-- The three ways of the unit's own step of a running request: it goes on, it completes, or INIT's status read finds no
device (R36, R130). -/
theorem pointStep_cases {pt : Point} (h : s.Inv) (hs : s.seq = .run pt) (ht : pointStep pt s = .next t) :
    s.GoesOn t ∨ s.Completes t ∨ t = raiseFault .deviceAbsent (portIn8 .statCmd s).2 := by
  obtain ⟨-, hfault, hinit, hpoint, -⟩ := running_facts h hs
  cases pt with
  | initStatus =>
    cases ht
    unfold initStatusStep
    split
    · exact .inr (.inr rfl)
    · exact .inl ⟨⟨_, rfl⟩, steady_update s ..⟩
  | initControl => cases ht; exact .inr (.inl (.init hs (initControlStep_completedWith hfault)))
  | leg l p =>
    obtain ⟨-, hok, -⟩ := hpoint
    exact (legStep_cases h hs ht).imp_right fun hdone => .inl (.transfer (by simp [hs]) hok hdone)
  | flBsy => cases ht; exact .inl (poll_goesOn _ _ hs)
  | flCmd =>
    obtain ⟨-, rfl⟩ := execCacheFlush_next ht
    obtain ⟨-, hok, -⟩ := hpoint
    have hend : s.tEnd = s.pos + s.tL := by
      have hrange := hok.endsInRange
      exact BitVec.eq_of_toNat_eq (hok.endPos.trans (BitVec.toNat_add_of_lt (by omega)).symm)
    have hdone : (finishTransfer s.tEnd (issue .cacheFlush s)).completedWith s.tEnd s.tL :=
      finishTransfer_completedWith (s := issue .cacheFlush s) hinit hfault _
    exact .inr (.inl (.transfer (by simp [hs]) hok (hend ▸ hdone)))

/-- The unit's own step from a legal state does nothing or one of the three (R40, R281). -/
theorem unitStep_cases (h : s.Inv) (ht : unitStep s = .next t) :
    t = s ∨ s.GoesOn t ∨ s.Completes t ∨ t = raiseFault .deviceAbsent (portIn8 .statCmd s).2 := by
  rcases unitStep_next ht with ⟨pt, hs, hp⟩ | rfl
  · exact .inr (pointStep_cases h hs hp)
  · exact .inl rfl

/-! ### A step while a request is running -/

/-- Where check 1 or 2 of R256 answers, it answers every word alike, illegal ones too. -/
theorem writeReq_of_gated (q : Byte) (h : ∀ k, gated s k = t) : writeReq q s = .next t := by
  cases hq : decodeRequest q with
  | ok i => rw [writeReq_of_decode hq, exec_request (encode_of_decodeRequest hq).2, request, h]
  | error e => rw [writeReq_of_decode_error hq, illegalWord, h]

/-- A word written to REQ while a request is running raises REQUEST_WHILE_BUSY, whatever the word (R256 check 2). -/
theorem writeReq_of_busy (q : Byte) (hf : s.seq ≠ .faulted) (hb : s.busy = true) :
    writeReq q s = .next (raiseFault .requestWhileBusy s) :=
  writeReq_of_gated q fun _ => (if_neg hf).trans (if_pos hb)

/-- A busy unit is not FAULTED (R25). -/
theorem seq_ne_faulted_of_busy (h : s.Inv) (hb : s.busy = true) : s.seq ≠ .faulted := by
  intro hs
  have hrun := h.status.busy
  rw [hb, hs] at hrun
  cases hrun

/-- Without a reset, a step from a running request leaves the caller's and the latched registers, completes the request,
or raises a fault (R257, R260, R291). -/
theorem step_of_busy (h : s.Inv) (ht : step s = .next t) (hreset : s.resetNext = false) (hb : s.busy = true) :
    (t.busy = true ∧ s.Steady t) ∨ s.Completes t ∨
      (t.busy = false ∧ t.seq = .faulted) := by
  rcases step_cases_of_no_reset ht hreset with ⟨moves, hu⟩ | ⟨q, rest, -, hw⟩ | hsame
  · rcases unitStep_cases (inv_setQueue h moves) hu with rfl | hon | hdone | rfl
    · exact .inl ⟨hb, (sameUnit_refl s).steady⟩
    · exact .inl ⟨hon.steady.busy_eq.trans hb, hon.steady⟩
    · refine .inr (.inl ?_)
      rcases hdone with ⟨hs, hd⟩ | ⟨hs, hok, hd⟩
      · exact .init hs hd
      · exact .transfer hs (hok.congr rfl rfl rfl rfl rfl rfl rfl) hd
    · exact .inr (.inr ⟨raiseFault_busy _ _, rfl⟩)
  · have hword := writeReq_of_busy (s := setQueue rest s) q (seq_ne_faulted_of_busy (inv_setQueue h rest) hb) hb
    cases hword.symm.trans hw
    exact .inr (.inr ⟨raiseFault_busy _ _, rfl⟩)
  · exact .inl ⟨hsame.steady.busy_eq.trans hb, hsame.steady⟩

/-- Settles O47: a step of a running request that leaves BUSY set neither completed it nor raised a fault. -/
theorem registersSteadyWhileBusy : Obligations.RegistersSteadyWhileBusy := by
  intro s t h ht hreset hb hbusy
  rcases step_of_busy h ht hreset hb with ⟨-, hsteady⟩ | hdone | ⟨hidle, -⟩
  · exact hsteady
  · cases hbusy.symm.trans hdone.not_busy
  · cases hbusy.symm.trans hidle

/-- Settles O46: a step of a running request that clears BUSY without a fault is its completion. -/
theorem completionEffect : Obligations.CompletionEffect := by
  intro s t h ht hreset hb hbusy hnf
  rcases step_of_busy h ht hreset hb with ⟨hon, -⟩ | hdone | ⟨-, hfaulted⟩
  · cases hon.symm.trans hbusy
  · rcases hdone with ⟨hs, hustat, hseq, hpos, hresult⟩ | ⟨hs, hok, hustat, hseq, hpos, hresult⟩
    · exact ⟨hustat, hseq, fun _ => ⟨hpos, hresult⟩, fun hne => absurd hs hne⟩
    · have hrange := hok.endsInRange
      refine ⟨hustat, hseq, fun he => absurd he hs, fun _ => ⟨?_, hresult⟩⟩
      rw [hpos, BitVec.toNat_add_of_lt (by omega)]
  · exact absurd hfaulted hnf

/-! ### Entering FAULTED -/

/-- A request that passes its checks does not fault in its acceptance step (R260). -/
theorem requestBody_seq_ne_faulted {i : Instr} (hi : i.format = .req8) (s : State) :
    (Instr.requestBody i s).seq ≠ .faulted := by
  by_cases hinit : i = .init
  · subst hinit
    exact nofun
  · rcases requestBody_seq hi hinit s with e | ⟨l, e⟩ <;> rw [e] <;> exact nofun

/-- A written word that enters FAULTED raises a fault and does nothing else (R255, R260). -/
theorem writeReq_into_faulted {q : Byte} (ht : writeReq q s = .next t) (hs : s.seq ≠ .faulted)
    (hfaulted : t.seq = .faulted) : ∃ c, t = raiseFault c s := by
  rcases writeReq_next ht with ⟨i, hq, he⟩ | rfl
  · have hi := (encode_of_decodeRequest hq).2
    cases (exec_request hi s).symm.trans he
    rcases request_cases i (Instr.requestBody i) s with ⟨e, -⟩ | ⟨-, -, e⟩ | ⟨-, -, c, -, e⟩ | ⟨-, -, -, e⟩
    · exact absurd e hs
    · exact ⟨_, e⟩
    · exact ⟨c, e⟩
    · rw [e] at hfaulted
      exact absurd hfaulted (requestBody_seq_ne_faulted hi _)
  · rcases illegalWord_cases s with e | ⟨c, e⟩
    · rw [e] at hfaulted
      exact absurd hfaulted hs
    · exact ⟨c, e⟩

/-- The platform's hardware reset is one step (R280; log entry 22). -/
theorem step_of_hardReset {rest : List CallerMove} (hq : s.callerQueue = .hardReset :: rest) :
    step s = .next (hardReset (setQueue rest s)) :=
  step_of_callerQueue_cons hq

/-- A reset next is the platform's move at the head of the queue. -/
theorem hardReset_of_resetNext (h : s.resetNext = true) : ∃ rest, s.callerQueue = .hardReset :: rest := by
  unfold State.resetNext at h
  split at h
  next rest hq => exact ⟨rest, hq⟩
  next => cases h

/-- A step that enters FAULTED from a legal state raises a fault over the state before it, but for the move taken off
the queue and, with DEVICE_ABSENT, INIT's status read (R130, R260). -/
theorem step_into_faulted (h : s.Inv) (ht : step s = .next t) (hs : s.seq ≠ .faulted) (hfaulted : t.seq = .faulted) :
    ∃ c moves d x, t = raiseFault c { s with callerQueue := moves, device := d, trace := x } ∧
      (c ≠ .deviceAbsent → x = s.trace ∧ d = s.device) := by
  cases hreset : s.resetNext with
  | true =>
    obtain ⟨rest, hq⟩ := hardReset_of_resetNext hreset
    cases (step_of_hardReset hq).symm.trans ht
    cases hfaulted
  | false =>
    rcases step_cases_of_no_reset ht hreset with ⟨moves, hu⟩ | ⟨q, rest, -, hw⟩ | hsame
    · rcases unitStep_cases (inv_setQueue h moves) hu with rfl | hon | hdone | rfl
      · exact absurd hfaulted hs
      · exact absurd hfaulted hon.seq_ne_faulted
      · exact absurd hfaulted hdone.seq_ne_faulted
      · exact ⟨.deviceAbsent, moves, _, _, rfl, fun hne => absurd rfl hne⟩
    · obtain ⟨c, rfl⟩ := writeReq_into_faulted hw hs hfaulted
      exact ⟨c, rest, s.device, s.trace, rfl, fun _ => ⟨rfl, rfl⟩⟩
    · exact absurd (hsame.seq_eq.symm.trans hfaulted) hs

/-- Settles O44: raising a fault writes USTAT and SEQ only, and the one fault with a transaction is DEVICE_ABSENT after
INIT's status read. -/
theorem faultEntryEffect : Obligations.FaultEntryEffect := by
  intro s t h ht hs hfaulted
  obtain ⟨c, moves, d, x, rfl, hnone⟩ := step_into_faulted h ht hs hfaulted
  exact ⟨⟨c, rfl, hnone⟩, rfl, rfl, rfl, ⟨rfl, rfl⟩, ⟨rfl, rfl⟩, ⟨rfl, rfl, rfl, rfl, rfl, rfl, rfl⟩, ⟨rfl, rfl⟩,
    ⟨rfl, rfl, rfl, rfl, rfl⟩, fun _ => rfl, rfl⟩

end Sys2Proof.Machine
end

section
/-! PROOFS. The acceptance checks in their order (R256), the fault the unit has no code for (R262), and FAULTED as the
unit's last state but for a hardware reset (R259, R280). -/

namespace Sys2Proof.Machine

variable {s t u : State}

/-! ### The acceptance checks -/

/-- A word written to a faulted unit is ignored, whatever the word (R256 check 1, R259). -/
theorem writeReq_of_faulted (q : Byte) (hs : s.seq = .faulted) : writeReq q s = .next s :=
  writeReq_of_gated q fun _ => if_pos hs

/-- A word whose request fails a check raises that check's fault and does nothing else (R256, R260). -/
theorem writeReq_faultedWith {q : Byte} {i : Instr} {c : FatalCode} (hq : decodeRequest q = .ok i)
    (hf : s.seq ≠ .faulted) (hb : s.busy = false) (ha : acceptFault i s = some c) :
    ∃ t, writeReq q s = .next t ∧ s.faultedWith c t :=
  (writeReq_of_decode hq s).symm ▸ exec_faultedWith (encode_of_decodeRequest hq).2 hf hb ha

/-- Check 4 of R256: a second INIT. -/
theorem initFault_of_inited (hinit : s.inited = true) : initFault s = some .alreadyInitialised :=
  if_pos hinit

/-- Check 6 of R256: a command base whose ports would wrap. -/
theorem initFault_of_base (hinit : s.inited = false) (hbase : 0xFFF8 < (initCmdBase s.arg0).toNat) :
    initFault s = some .baseRange :=
  (if_neg (Bool.eq_false_iff.mp hinit)).trans (if_pos hbase)

/-- With a handle READ and WRITE stand under checks 7 to 9 of R256. -/
theorem acceptFault_of_transfer {i : Instr} (hi : i = .read ∨ i = .write) (hinit : s.inited = true) :
    acceptFault i s = transferFault s := by
  have hhandle : handleFault s = none := if_pos hinit
  rcases hi with rfl | rfl <;> rw [acceptFault, hhandle, Option.none_or]

/-- Check 7 of R256: the end of the transfer. -/
theorem transferFault_of_end (hend : 2 ^ 64 - 1 < s.pos.toNat + s.arg1.toNat) :
    transferFault s = some .positionOverflow :=
  if_pos hend

/-- Check 8 of R256: the buffer. -/
theorem transferFault_of_buffer (hend : s.pos.toNat + s.arg1.toNat ≤ 2 ^ 64 - 1)
    (hbuf : 2 ^ 64 < s.arg0.toNat + s.arg1.toNat) : transferFault s = some .bufferRange :=
  (if_neg (Nat.not_lt.mpr hend)).trans (if_pos hbuf)

/-- Check 9 of R256: the sector count. -/
theorem transferFault_of_sectors (hend : s.pos.toNat + s.arg1.toNat ≤ 2 ^ 64 - 1)
    (hbuf : s.arg0.toNat + s.arg1.toNat ≤ 2 ^ 64) (hsect : 255 < requiredSectors s.pos.toNat s.arg1.toNat) :
    transferFault s = some .sectorCountRange :=
  (if_neg (Nat.not_lt.mpr hend)).trans ((if_neg (Nat.not_lt.mpr hbuf)).trans (if_pos hsect))

/-- Settles O11: checks 1 and 2 come before the word is decoded, check 3 is the decoder's, and each of the others is a
branch of `acceptFault`. -/
theorem acceptanceCheckOrder : Obligations.AcceptanceCheckOrder := by
  refine fun s q => ⟨writeReq_of_faulted q, fun hf hb => ?busy, fun hf hb =>
    ⟨?illegal, ?second, ?missing, ?base, ?transfer⟩⟩
  case busy => exact ⟨_, writeReq_of_busy q hf hb, raiseFault_faultedWith .requestWhileBusy s⟩
  case illegal => exact fun e hq => writeReq_faultedWith_of_decode_error hq hf hb
  case second => exact fun hq hinit => writeReq_faultedWith hq hf hb (initFault_of_inited hinit)
  case missing =>
    exact fun i hq hne hinit =>
      writeReq_faultedWith hq hf hb (acceptFault_of_no_handle (encode_of_decodeRequest hq).2 hne hinit)
  case base => exact fun hq hinit hbase => writeReq_faultedWith hq hf hb (initFault_of_base hinit hbase)
  case transfer =>
    intro i hq hi hinit
    have hfault : ∀ {c}, transferFault s = some c → ∃ t, writeReq q s = .next t ∧ s.faultedWith c t := fun hc =>
      writeReq_faultedWith hq hf hb ((acceptFault_of_transfer hi hinit).trans hc)
    exact ⟨fun hend => hfault (transferFault_of_end hend), fun hend hbuf => hfault (transferFault_of_buffer hend hbuf),
      fun hend hbuf hsect => hfault (transferFault_of_sectors hend hbuf hsect)⟩

/-! ### The fault without a code -/

/-- The merge of a word before the buffer or across its start needs START_SNAP's element (R225, R262). -/
theorem startWord_of_unwritten (h : snapElem s.haveStart s.startSnap s.loopW.toNat = none) :
    startWord s = .error .unwrittenSnapshot := by
  rw [startWord, h]

/-- The merge of a word past the buffer or across its end needs END_SNAP's element (R225, R262). -/
theorem endWord_of_unwritten (h : snapElem s.haveEnd s.endSnap s.loopW.toNat = none) :
    endWord s = .error .unwrittenSnapshot := by
  rw [endWord, h]

/-- A merge that reads an element without a value gives no word, whatever the buffer holds (R262). -/
theorem mergeWord_of_unwritten (h : s.unwrittenElement) : mergeWord s = .error .unwrittenSnapshot := by
  unfold mergeWord
  rcases h with ⟨hc | hc, hnone⟩ | ⟨hc | hc, hnone⟩
  · rw [hc, startWord_of_unwritten hnone]
  · rw [hc, startWord_of_unwritten hnone]
  · rw [hc, endWord_of_unwritten hnone]
  · rw [hc, endWord_of_unwritten hnone]

/-- The step of WRITE's data word then raises UNWRITTEN_SNAPSHOT, before any port transaction (R262; log entry 9). -/
theorem step_of_unwritten (hq : s.callerQueue = []) (hs : s.seq = .run (.leg .write .xfer)) (h : s.unwrittenElement) :
    step s = .next (raiseUnwrittenSnapshot s) := by
  refine (step_at hq hs).trans ?_
  show writeWordStep s = _
  rw [writeWordStep, mergeWord_of_unwritten h]

/-- Settles O59: raising UNWRITTEN_SNAPSHOT writes USTAT, SEQ and the model's mark, and nothing else. -/
theorem unwrittenElementEntersFaulted : Obligations.UnwrittenElementEntersFaulted :=
  fun s hq hs h => ⟨raiseUnwrittenSnapshot s, step_of_unwritten hq hs h, rfl, raiseUnwrittenSnapshot_faultFlag s,
    raiseUnwrittenSnapshot_busy s, raiseUnwrittenSnapshot_inited s, ustatReserved_ustatOf .., rfl, rfl, rfl, rfl, rfl,
    rfl, rfl, rfl, ⟨rfl, rfl⟩, ⟨rfl, rfl⟩, ⟨rfl, rfl, rfl, rfl, rfl, rfl, rfl⟩, ⟨rfl, rfl⟩, ⟨rfl, rfl⟩, fun _ => rfl,
    ⟨rfl, rfl⟩, rfl⟩

/-! ### FAULTED is final -/

/-- A faulted unit makes no step of its own (R259, R281). -/
theorem unitStep_of_faulted (hs : s.seq = .faulted) : unitStep s = .next s := by
  rw [unitStep, hs]

/-- Nothing but the operands, caller memory, the caller's moves to come and its last read is other than before: what the
caller can do to a faulted unit (R259). -/
def State.onlyCaller (s t : State) : Prop :=
  t = { s with
    arg0 := t.arg0, arg1 := t.arg1, mem := t.mem, callerQueue := t.callerQueue, callerIn := t.callerIn }

theorem State.onlyCaller.trans (h : s.onlyCaller t) (h' : t.onlyCaller u) : s.onlyCaller u :=
  Eq.trans h' (congrArg (fun x : State => { x with
    arg0 := u.arg0, arg1 := u.arg1, mem := u.mem, callerQueue := u.callerQueue, callerIn := u.callerIn }) h)

theorem State.onlyCaller.seq_eq (h : s.onlyCaller t) : t.seq = s.seq := by
  rw [h]

/-- The same, in the terms of the claims. -/
theorem State.onlyCaller.frame (h : s.onlyCaller t) : s.sameUnit t ∧ s.noTransaction t := by
  rw [h]
  exact ⟨sameUnit_refl s, rfl, rfl⟩

/-- Without a reset a step of a faulted unit is the caller's alone and takes at most one move off the queue (R259). -/
theorem step_of_faulted (hs : s.seq = .faulted) (hreset : s.resetNext = false) (ht : step s = .next t) :
    s.onlyCaller t ∧ t.callerQueue <:+ s.callerQueue := by
  have htail : ∀ {m rest}, s.callerQueue = m :: rest → rest <:+ s.callerQueue := fun hq => hq ▸ List.suffix_cons ..
  rcases step_cases ht with ⟨-, hu⟩ | ⟨rest, hq, hu⟩ | ⟨-, -, -, hu⟩ | ⟨rest, hq, -, rfl⟩ | ⟨q, rest, hq, hw⟩ |
    ⟨v, rest, hq, rfl⟩ | ⟨v, rest, hq, rfl⟩ | ⟨r, rest, hq, rfl⟩ | ⟨a, v, rest, hq, -, rfl⟩ | ⟨a, rest, hq, -, rfl⟩ |
    ⟨rest, hq, -⟩
  · cases (unitStep_of_faulted hs).symm.trans hu
    exact ⟨rfl, List.suffix_rfl⟩
  · cases (unitStep_of_faulted (s := setQueue rest s) hs).symm.trans hu
    exact ⟨rfl, htail hq⟩
  · cases (unitStep_of_faulted hs).symm.trans hu
    exact ⟨rfl, List.suffix_rfl⟩
  · exact ⟨rfl, htail hq⟩
  · cases (writeReq_of_faulted (s := setQueue rest s) q hs).symm.trans hw
    exact ⟨rfl, htail hq⟩
  · exact ⟨rfl, htail hq⟩
  · exact ⟨rfl, htail hq⟩
  · exact ⟨rfl, htail hq⟩
  · exact ⟨rfl, htail hq⟩
  · exact ⟨rfl, htail hq⟩
  · cases hreset.symm.trans (resetNext_of_hardReset hq)

/-- So is a run of any length whose moves to come hold no reset (R259), by induction on the number of steps. -/
theorem steps_of_faulted {n : Nat} (hs : s.seq = .faulted) (hreset : .hardReset ∉ s.callerQueue)
    (ht : steps n s = .next t) : s.onlyCaller t := by
  induction n generalizing s with
  | zero => cases ht; rfl
  | succ n ih =>
    have hnext : s.resetNext = false := by
      refine Bool.eq_false_iff.mpr fun h => hreset ?_
      obtain ⟨rest, hq⟩ := hardReset_of_resetNext h
      exact hq ▸ List.mem_cons_self
    rw [steps_succ] at ht
    split at ht
    next u hu =>
      obtain ⟨hframe, hsuffix⟩ := step_of_faulted hs hnext hu
      exact hframe.trans (ih (hframe.seq_eq.trans hs) (fun h => hreset (hsuffix.subset h)) ht)
    next => cases ht
    next => cases ht

/-- Settles O45: a faulted unit ignores every word and makes no step of its own; the operand writes and the register
reads are the caller's moves, which ask nothing of the unit. -/
theorem faultedIsFinal : Obligations.FaultedIsFinal :=
  ⟨fun _ _ _ hs hreset ht => (steps_of_faulted hs hreset ht).frame,
    fun _ _ _ _ hq => ⟨_, step_of_callerQueue_cons hq, rfl⟩, fun _ _ _ _ hq => ⟨_, step_of_callerQueue_cons hq, rfl⟩,
    fun _ _ _ _ hq => ⟨_, step_of_callerQueue_cons hq, rfl⟩⟩

end Sys2Proof.Machine
end

section
/-! PROOFS. Reset and the boundary cases (R280 to R287): the hardware reset, the handle a successful INIT creates, and
READ and WRITE of length 0. -/

namespace Sys2Proof.Machine

variable {s : State}

/-! ### Hardware reset -/

/-- Settles O43: the reset state's values are those of R42, what the reset keeps is not the unit's, and a step of a
faulted unit without a reset leaves SEQ. -/
theorem hardwareResetEffect : Obligations.HardwareResetEffect := by
  obtain ⟨-, -, -, -, -, -, -, -, -, hsnaps, -⟩ := resetValues
  refine ⟨fun s rest hq => ?effect, fun s t hs ht hne => ?only⟩
  case effect =>
    exact ⟨_, step_of_hardReset hq, rfl, rfl, rfl, rfl, rfl, rfl, rfl, rfl, rfl, hsnaps, rfl, rfl, rfl, ⟨rfl, rfl⟩,
      fun _ => rfl, rfl, rfl⟩
  case only =>
    refine Bool.eq_true_of_not_eq_false fun hreset => hne ?_
    exact (step_of_faulted hs hreset ht).1.seq_eq.trans hs

/-! ### INIT from a device that is there -/

/-- Any status byte but the sentinel lets INIT go on to its control write (R95, R130). -/
theorem step_initStatus_of_not_absent (hq : s.callerQueue = []) (hs : s.seq = .run .initStatus)
    (hthere : (s.device.in8 .statCmd).1 ≠ 0xFF#8) :
    step s = .next (goPoint .initControl (portIn8 .statCmd s).2) :=
  (step_at hq hs).trans (congrArg _ (if_neg fun habsent => hthere (beq_iff_eq.mp habsent)))

@[simp] theorem portAddr_ctl (s : State) : s.portAddr .ctl = s.ctlBase := BitVec.add_zero _

/-- INIT's control write is one write of 0 to the control register, at CTL_BASE (R94, R110). -/
theorem initControlStep_oneTransaction (s : State) :
    s.oneTransaction (.out8 .ctl s.ctlBase 0x00#8) (initControlStep s) :=
  congrArg (PortTx.out8 .ctl · deviceControlByte :: s.trace) (portAddr_ctl s)

/-- USTAT of a completed INIT: the handle and nothing else (R24, R130). -/
theorem initControlStep_ustat (hfault : s.faultFlag = false) : (initControlStep s).ustat = 0x0002#16 :=
  (initControlStep_completedWith hfault).1

/-- Settles O14: the acceptance writes the bases, the status read is not the sentinel, and the control write completes
INIT. -/
theorem initCreatesHandle : Obligations.InitCreatesHandle := by
  intro s h hq hbase hthere
  obtain ⟨-, -, -, hfault⟩ := h.accepts
  have haccept := step_of_initWord h hq hbase
  have hread := step_initStatus_of_not_absent (s := beginInit (accepted .init (setQueue [] s))) rfl rfl hthere
  have hcontrol := step_at (s := goPoint .initControl (portIn8 .statCmd (beginInit (accepted .init (setQueue [] s)))).2)
    rfl rfl
  have hflag : (accepted .init (setQueue [] s)).faultFlag = false := (accepted_faultFlag _ _).trans hfault
  exact ⟨_, steps_trans (steps_trans (steps_one haccept) (steps_one hread)) (steps_one hcontrol), rfl, rfl, rfl,
    initControlStep_ustat hflag, rfl, rfl, initControlStep_oneTransaction _, rfl, rfl, ⟨rfl, rfl⟩,
    ⟨rfl, rfl, rfl, rfl, rfl, rfl, rfl⟩, ⟨rfl, rfl⟩, ⟨rfl, rfl, rfl, rfl, rfl⟩, fun _ => rfl⟩

/-! ### Length 0 -/

/-- READ of length 0 completes in its acceptance step (R200, R287). -/
theorem readBody_of_zero (hl : s.arg1 = 0#64) : readBody s = completeOk 0#64 (latchTransfer .read s) :=
  if_pos hl

/-- So does WRITE (R220, R287). -/
theorem writeBody_of_zero (hl : s.arg1 = 0#64) : writeBody s = completeOk 0#64 (latchWrite s) :=
  if_pos hl

/-- Settles O24: of what the two requests write at length 0, only POS, USTAT, RESULT and SEQ are part of the claim, and
the cursor stands. -/
theorem zeroLengthTransfers : Obligations.ZeroLengthTransfers := by
  rintro s i hready hfit hl (rfl | rfl)
  · refine ⟨_, (execRead_of_ready hready hfit).trans (congrArg _ (readBody_of_zero hl)),
      ⟨hready.ustat_of_completion .read 0x00#8, rfl, rfl, rfl⟩, ?_⟩
    exact ⟨⟨rfl, rfl⟩, ⟨rfl, rfl⟩, ⟨rfl, rfl⟩, rfl, ⟨rfl, rfl⟩, fun _ => rfl, ⟨rfl, rfl⟩⟩
  · refine ⟨_, (execWrite_of_ready hready hfit).trans (congrArg _ (writeBody_of_zero hl)),
      ⟨hready.ustat_of_completion .write 0x00#8, rfl, rfl, rfl⟩, ?_⟩
    exact ⟨⟨rfl, rfl⟩, ⟨rfl, rfl⟩, ⟨rfl, rfl⟩, rfl, ⟨rfl, rfl⟩, fun _ => rfl, ⟨rfl, rfl⟩⟩

end Sys2Proof.Machine
end
